-- ==== Sys2Proof/Word.lean ====
section
/-! DEFINITION. The words of GFCORE: field elements, command words and the small index fields of a command. -/

namespace Sys2Proof

/-- A field element, and every datum the block stores (spec 00 R2): one byte. -/
abbrev Byte := BitVec 8

/-- A command word of the command port (R70): 32 bits, bit 0 the least significant (R10). -/
abbrev CmdWord := BitVec 32

/-- A register field RD, RS1 or RS2 (R71): an unsigned 4-bit index, every value of which names a register. -/
abbrev RegIdx := BitVec 4

end Sys2Proof
end

