-- ==== Sys2Proof/Syntax.lean ====
section
/-! DEFINITION. The commands of GFCORE, one constructor for each row of the opcode table (spec 30 R75), and the
lines of its assembler (R79, R80). -/

namespace Sys2Proof

/-- A decoded command. Its fields are the fields its format uses (R72), at the width the format gives them:
register fields hold 4 bits (R71), immediates 8 (R73), and no value of either is refused at decode (R78). -/
inductive Instr where
  | nop
  | gadd (rd rs1 rs2 : RegIdx)
  | gmul (rd rs1 rs2 : RegIdx)
  | gdiv (rd rs1 rs2 : RegIdx)
  | ldi (rd : RegIdx) (imm : Byte)
  | cfg (k n : Byte)
  | wrc (rs1 : RegIdx) (idx : Byte)
  | rdc (rd : RegIdx) (idx : Byte)
  | rndc
  | perm
  | rdx (rd : RegIdx) (idx : Byte)
  | eval (rd rs1 : RegIdx)
  | evalp (rd : RegIdx) (idx : Byte)
  | out (rs1 : RegIdx)
  deriving DecidableEq, Repr

/-- One assembler line with its operands as the programmer wrote them (R79), the three pseudo-instructions of
R80 and the `.word` directive included. The numbers are not bounded here: WellFormed.lean refuses those that
R79 calls an assembly error. -/
inductive Asm where
  | nop
  | gadd (d s1 s2 : Nat)
  | gmul (d s1 s2 : Nat)
  | gdiv (d s1 s2 : Nat)
  | ldi (d imm : Nat)
  | cfg (k n : Nat)
  | wrc (idx s : Nat)
  | rdc (d idx : Nat)
  | rndc
  | perm
  | rdx (d idx : Nat)
  | eval (d s : Nat)
  | evalp (d idx : Nat)
  | out (s : Nat)
  | gsub (d s1 s2 : Nat)
  | clr (d : Nat)
  | gsq (d s : Nat)
  | word (w : Nat)
  deriving DecidableEq, Repr

end Sys2Proof
end

