-- ==== Sys2Proof/WellFormed.lean ====
section
/-! DEFINITION. What a well-formed command and a well-formed assembler line are.

A command of `Instr` carries its bounds in the types of its fields, so nothing about it is left to check (R71,
R73, R78). An assembler line is written with unbounded numbers, and R79 says which of them are an error. -/

namespace Sys2Proof

/-- Every `Instr` is a legal command: R78, "A legal word's fields are never checked for value at decode time". -/
def Instr.wellFormed : Instr → Bool
  | .nop | .gadd _ _ _ | .gmul _ _ _ | .gdiv _ _ _ | .ldi _ _ | .cfg _ _ | .wrc _ _ | .rdc _ _
  | .rndc | .perm | .rdx _ _ | .eval _ _ | .evalp _ _ | .out _ => true

/-- "Registers are written `r0` to `r15`" (R79). -/
def isRegNumber (r : Nat) : Bool := decide (r < 16)

/-- "Immediates ... must lie in 0..255; an immediate outside that range is an assembly error" (R79). -/
def isImmediate (v : Nat) : Bool := decide (v < 256)

/-- `.word` takes a 32-bit word (R79). -/
def isWordValue (w : Nat) : Bool := decide (w < 2 ^ 32)

/-- The operand checks of an assembler line (R79, R80). -/
def Asm.wellFormed : Asm → Bool
  | .nop | .rndc | .perm => true
  | .gadd d a b | .gmul d a b | .gdiv d a b | .gsub d a b => isRegNumber d && isRegNumber a && isRegNumber b
  | .eval d a | .gsq d a => isRegNumber d && isRegNumber a
  | .ldi d v | .rdc d v | .rdx d v | .evalp d v => isRegNumber d && isImmediate v
  | .wrc v a => isImmediate v && isRegNumber a
  | .cfg k n => isImmediate k && isImmediate n
  | .out a | .clr a => isRegNumber a
  | .word w => isWordValue w

end Sys2Proof
end

