-- ==== Sys2Proof/Decode.lean ====
section
/-! DEFINITION. Decoding of command words (spec 30 R70 to R78), total over all 2^32 words and rejecting by
name, and the encoder written from the same rules (R72, R79). -/

namespace Sys2Proof

/-- The fourteen opcodes of R75, in the table's order. -/
inductive Op where
  | nop | gadd | gmul | gdiv | ldi | cfg | wrc | rdc | rndc | perm | rdx | eval | evalp | out
  deriving DecidableEq, Repr

/-- The two kinds of illegal word (R77): a reserved opcode, or a reserved bit set under a legal opcode. -/
inductive Illegal where
  | reservedOpcode
  | reservedBit (op : Op)
  deriving DecidableEq, Repr

/-! ### Fields of a word (R70) -/

def opField (w : CmdWord) : BitVec 4 := w.extractLsb' 28 4
def rdField (w : CmdWord) : RegIdx := w.extractLsb' 24 4
def rs1Field (w : CmdWord) : RegIdx := w.extractLsb' 20 4
def rs2Field (w : CmdWord) : RegIdx := w.extractLsb' 16 4
def immField (w : CmdWord) : Byte := w.extractLsb' 8 8
def imm2Field (w : CmdWord) : Byte := w.extractLsb' 0 8

/-! ### The opcode map (R75) -/

/-- The opcode's value, the OP column of R75. -/
def Op.code : Op → BitVec 4
  | .nop => 0x0 | .gadd => 0x1 | .gmul => 0x2 | .gdiv => 0x3 | .ldi => 0x4 | .cfg => 0x5 | .wrc => 0x6
  | .rdc => 0x7 | .rndc => 0x8 | .perm => 0x9 | .rdx => 0xA | .eval => 0xB | .evalp => 0xC | .out => 0xD

/-- The opcode that a 4-bit OP field names; 0xE and 0xF are reserved (R75, R77). -/
def Op.ofField (f : BitVec 4) : Option Op :=
  match f.toNat with
  | 0x0 => some .nop | 0x1 => some .gadd | 0x2 => some .gmul | 0x3 => some .gdiv | 0x4 => some .ldi
  | 0x5 => some .cfg | 0x6 => some .wrc | 0x7 => some .rdc | 0x8 => some .rndc | 0x9 => some .perm
  | 0xA => some .rdx | 0xB => some .eval | 0xC => some .evalp | 0xD => some .out
  | _ => none

/-- The mask column of R75. -/
def Op.mask : Op → CmdWord
  | .nop => 0xFFFFFFFF
  | .gadd => 0xF000FFFF
  | .gmul => 0xF000FFFF
  | .gdiv => 0xF000FFFF
  | .ldi => 0xF0FF00FF
  | .cfg => 0xFFFF0000
  | .wrc => 0xFF0F00FF
  | .rdc => 0xF0FF00FF
  | .rndc => 0xFFFFFFFF
  | .perm => 0xFFFFFFFF
  | .rdx => 0xF0FF00FF
  | .eval => 0xF00FFFFF
  | .evalp => 0xF0FF00FF
  | .out => 0xFF0FFFFF

/-- The match column of R75. -/
def Op.pattern : Op → CmdWord
  | .nop => 0x00000000
  | .gadd => 0x10000000
  | .gmul => 0x20000000
  | .gdiv => 0x30000000
  | .ldi => 0x40000000
  | .cfg => 0x50000000
  | .wrc => 0x60000000
  | .rdc => 0x70000000
  | .rndc => 0x80000000
  | .perm => 0x90000000
  | .rdx => 0xA0000000
  | .eval => 0xB0000000
  | .evalp => 0xC0000000
  | .out => 0xD0000000

/-- The command of opcode `op` whose operands are the fields of `w` that op's format uses (R72, R76). -/
def Op.build (op : Op) (w : CmdWord) : Instr :=
  match op with
  | .nop => .nop
  | .gadd => .gadd (rdField w) (rs1Field w) (rs2Field w)
  | .gmul => .gmul (rdField w) (rs1Field w) (rs2Field w)
  | .gdiv => .gdiv (rdField w) (rs1Field w) (rs2Field w)
  | .ldi => .ldi (rdField w) (immField w)
  | .cfg => .cfg (immField w) (imm2Field w)
  | .wrc => .wrc (rs1Field w) (immField w)
  | .rdc => .rdc (rdField w) (immField w)
  | .rndc => .rndc
  | .perm => .perm
  | .rdx => .rdx (rdField w) (immField w)
  | .eval => .eval (rdField w) (rs1Field w)
  | .evalp => .evalp (rdField w) (immField w)
  | .out => .out (rs1Field w)

/-- R76: the opcode first, then the reserved bits, then the fields. -/
def decode (w : CmdWord) : Except Illegal Instr :=
  match Op.ofField (opField w) with
  | none => .error .reservedOpcode
  | some op => if w &&& op.mask = op.pattern then .ok (op.build w) else .error (.reservedBit op)

/-- The opcode of a command. -/
def Instr.op : Instr → Op
  | .nop => .nop
  | .gadd _ _ _ => .gadd
  | .gmul _ _ _ => .gmul
  | .gdiv _ _ _ => .gdiv
  | .ldi _ _ => .ldi
  | .cfg _ _ => .cfg
  | .wrc _ _ => .wrc
  | .rdc _ _ => .rdc
  | .rndc => .rndc
  | .perm => .perm
  | .rdx _ _ => .rdx
  | .eval _ _ => .eval
  | .evalp _ _ => .evalp
  | .out _ => .out

/-! ### Encoder (R72, R79) -/

/-- Field `v` with its lowest bit at bit `at_` of the word; the rest of the word 0. -/
def placeField {width : Nat} (v : BitVec width) (at_ : Nat) : CmdWord := v.setWidth 32 <<< at_

/-- The command word of a command: its fields at the positions of R70, every other bit 0. -/
def encode : Instr → CmdWord
  | .nop => placeField 0x0#4 28
  | .gadd rd rs1 rs2 => placeField 0x1#4 28 ||| placeField rd 24 ||| placeField rs1 20 ||| placeField rs2 16
  | .gmul rd rs1 rs2 => placeField 0x2#4 28 ||| placeField rd 24 ||| placeField rs1 20 ||| placeField rs2 16
  | .gdiv rd rs1 rs2 => placeField 0x3#4 28 ||| placeField rd 24 ||| placeField rs1 20 ||| placeField rs2 16
  | .ldi rd imm => placeField 0x4#4 28 ||| placeField rd 24 ||| placeField imm 8
  | .cfg k n => placeField 0x5#4 28 ||| placeField k 8 ||| placeField n 0
  | .wrc rs1 idx => placeField 0x6#4 28 ||| placeField rs1 20 ||| placeField idx 8
  | .rdc rd idx => placeField 0x7#4 28 ||| placeField rd 24 ||| placeField idx 8
  | .rndc => placeField 0x8#4 28
  | .perm => placeField 0x9#4 28
  | .rdx rd idx => placeField 0xA#4 28 ||| placeField rd 24 ||| placeField idx 8
  | .eval rd rs1 => placeField 0xB#4 28 ||| placeField rd 24 ||| placeField rs1 20
  | .evalp rd idx => placeField 0xC#4 28 ||| placeField rd 24 ||| placeField idx 8
  | .out rs1 => placeField 0xD#4 28 ||| placeField rs1 20

/-- The command that the decoder reads from the word of an opcode-table row: the port carries it whole (R51),
so the row's bit numbers are the word's own. -/
def decodeTableWord (nbits w : Nat) : Option Instr :=
  match decode (BitVec.ofNat 32 (w % 2 ^ nbits)) with
  | .ok i => some i
  | .error _ => none

end Sys2Proof
end

