-- ==== Sys2Proof/Machine/State.lean ====
section
/-! DEFINITION. The state of GFCORE (spec 10 R20), the inputs of its ports, the ways a step can stop, and the
state after reset (spec 70 R230). -/

namespace Sys2Proof.Machine

/-- The two lookup tables of R31 and R32. R20 lists them as state that nothing writes. -/
structure Rom where
  exp : Vector Byte 256
  log : Vector Byte 256
  deriving DecidableEq, Repr

/-- One answer of a randomness provider (R40, R41): `Ok` with its bytes, or `Fail`. -/
inductive Answer where
  | ok (bytes : List Byte)
  | fail
  deriving DecidableEq, Repr

/-- What the host does to the block, one event after another (log 2, log 8).
* `command w`: it delivers the word w on the command port (R3, R237).
* `resetAssert`, `resetRelease`: it drives the RESET input (R230).
* `resetDuring w`: it asserts RESET while the command w is executing; "reset wins" (R210). -/
inductive HostEvent where
  | command (w : CmdWord)
  | resetAssert
  | resetRelease
  | resetDuring (w : CmdWord)
  deriving DecidableEq, Repr

/-- The inputs of the step, which R20 keeps apart from the architectural state ("The command stream, the
provider answers and the parameters ... are inputs to the step relation, not state"). They are data of the
state type because a step takes nothing else (log 2).
* `events`: what the host does next, soonest first.
* `resetLine`: the level of the RESET input.
* `entropy`, `permutations`: the answers the two providers give to the block's next requests, soonest first;
  an empty list is a provider that does not answer (R237).
* `hostTakes`: whether the host takes the byte an OUT offers (R236). -/
structure Ports where
  events : List HostEvent
  resetLine : Bool
  entropy : List Answer
  permutations : List Answer
  hostTakes : Bool
  deriving DecidableEq, Repr

/-- The architectural state of R20, field by field, and the ports. -/
structure State where
  /-- R[0..15] (R21) -/
  regs : Vector Byte 16
  /-- C[0..254], the coefficient file (R36) -/
  coef : Vector Byte 255
  /-- X[0..254], the coordinate file (R37) -/
  coord : Vector Byte 255
  /-- K, the threshold (R27) -/
  k : Byte
  /-- N, the participant count (R27) -/
  n : Byte
  /-- STATUS.CFGV (R26) -/
  cfgv : Bool
  /-- STATUS.XV (R26) -/
  xv : Bool
  /-- STATUS.FAULT (R26) -/
  fault : Bool
  /-- STATUS.CAUSE (R26, R200) -/
  cause : BitVec 4
  /-- FCMD, the word that faulted (R29) -/
  fcmd : CmdWord
  /-- CC, the command counter (R25) -/
  cc : BitVec 32
  /-- OUTQ, the output stream, oldest byte first (R39) -/
  outq : List Byte
  /-- EXP and LOG (R31, R32) -/
  rom : Rom
  /-- the inputs; not state of R20 (log 2) -/
  io : Ports
  deriving DecidableEq, Repr

/-- The causes of a GFCORE fault (R200). Each is a fault the block itself takes: a next state with FAULT = 1,
never a stop of the model. -/
inductive FaultCause where
  | illegal | divZero | config | sequence | index | entropy
  deriving DecidableEq, Repr

/-- Why the model has no next state although the block is not faulted: it waits, and nothing in the state ends
the wait. All are safe: the model stops where the block would go on once the outside world acted. -/
inductive Fault where
  /-- RNDC waits for an entropy answer that does not come (R237, U8). Raised by `execRndc`. Safe. -/
  | awaitingEntropy
  /-- PERM waits for a permutation answer that does not come (R237, U8). Raised by `execPerm`. Safe. -/
  | awaitingPermutation
  /-- OUT waits for a host that does not take the byte (R236, O8). Raised by `execOut`. Safe. -/
  | awaitingHost
  /-- The entropy port gave an `Ok` with another number of bytes than asked for, which R40 rules out
  ("exactly m bytes"). Raised by `execRndc`. Safe (log 5). -/
  | entropyAnswerLength
  deriving DecidableEq, Repr

/-- What the model refuses. -/
inductive Refusal where
  /-- An instruction without a meaning yet. No arm of `exec` uses it. Safe. -/
  | notModelled (mnemonic : String)
  /-- Parameters that R8 makes a model refuse. Raised by `State.boot`, never by a step. Safe. -/
  | illegalParameters
  deriving DecidableEq, Repr

/-- The reset state of R230 around a given ROM, with nothing on the ports. R230 fixes every field but the ROM,
which reset does not change, and the ports, which are inputs (log 2). -/
def State.resetAround (rom : Rom) : State where
  regs := Vector.replicate 16 0
  coef := Vector.replicate 255 0
  coord := Vector.replicate 255 0
  k := 0
  n := 0
  cfgv := false
  xv := false
  fault := false
  cause := 0
  fcmd := 0
  cc := 0
  outq := []
  rom := rom
  io := { events := [], resetLine := false, entropy := [], permutations := [], hostTakes := true }

/-- The ROM of R35, for the spec's vector parameters (log 1). -/
def Rom.vector : Rom where
  exp := ⟨⟨Config.vectorExpRows⟩, by decide +kernel⟩
  log := ⟨⟨Config.vectorLogRows⟩, by decide +kernel⟩

/-- The machine right after reset (R230, R231), its ROM that of R35. PRESUMED (log 1): the spec leaves the
parameters of the ROM open and names these for its vectors. -/
def State.reset : State := State.resetAround Rom.vector

end Sys2Proof.Machine
end

