-- ==== Sys2Proof/Machine/FieldTables.lean ====
section
/-! DEFINITION. The field that the parameters define, which parameters are legal (spec 00 R6, R8), and the EXP
and LOG tables they give (spec 10 R31, R32, R34). -/

namespace Sys2Proof

/-- Carry-less product of two polynomials over GF(2) of degree below 8; bit i is the coefficient of x^i. -/
def clmulUpTo (a b : Byte) : Nat → BitVec 16
  | 0 => 0
  | i + 1 => clmulUpTo a b i ^^^ (if b.getLsbD i then a.setWidth 16 <<< i else 0)

def clmul (a b : Byte) : BitVec 16 := clmulUpTo a b 8

/-- The remainder of v by a polynomial of degree 8: the terms of degree 8 + i for i below the given bound are
cancelled, the highest first. -/
def polyModFrom (poly : BitVec 9) : Nat → BitVec 16 → BitVec 16
  | 0, v => v
  | i + 1, v => polyModFrom poly i (if v.getLsbD (8 + i) then v ^^^ (poly.setWidth 16 <<< i) else v)

/-- `clmul_mod` of R34: carry-less multiplication of a and b reduced modulo GF_POLY. It is the product a·b of
R12 when GF_POLY is legal. -/
def FieldParams.mul (p : FieldParams) (a b : Byte) : Byte :=
  (polyModFrom p.poly 8 (clmul a b)).setWidth 8

/-- Powers in the field: `p.pow a i` is a^i, with a^0 = 1. -/
def FieldParams.pow (p : FieldParams) (a : Byte) : Nat → Byte
  | 0 => 1
  | i + 1 => p.mul (p.pow a i) a

/-! ### Legal parameters (R6, R8) -/

/-- The remainder of the polynomial v by the polynomial d, both written as numbers: for each shift below the
given bound, the highest first, d is subtracted where its leading term meets v's. -/
def polyRemFrom (d : Nat) : Nat → Nat → Nat
  | 0, v => v
  | i + 1, v => polyRemFrom d i (if v ≠ 0 ∧ Nat.log2 v = Nat.log2 d + i then v ^^^ (d <<< i) else v)

/-- GF_POLY has degree 8 and no divisor of degree 1 to 4 (the numbers 2 to 31), which for degree 8 is to be
irreducible (log 14). -/
def FieldParams.polyLegal (p : FieldParams) : Bool :=
  p.poly.getLsbD 8 && (List.range 30).all fun i => polyRemFrom (i + 2) 8 p.poly.toNat != 0

/-- None of the `count` powers from v on, each the one before times the generator, is 1, and the power after
them is. -/
def FieldParams.firstOneAfter (p : FieldParams) : Nat → Byte → Bool
  | 0, v => v == 1
  | count + 1, v => v != 1 && p.firstOneAfter count (p.mul v p.gen)

/-- GF_GEN has order 255: of its powers g, g^2, ..., g^255 the last is the first to be 1. -/
def FieldParams.genLegal (p : FieldParams) : Bool := p.firstOneAfter 254 p.gen

/-- The parameters a model may take (R6, R8). -/
def FieldParams.legal (p : FieldParams) : Bool := p.polyLegal && p.genLegal

/-! ### The tables (R31, R32) -/

/-- `count` successive powers, the first being v. -/
def FieldParams.powersFrom (p : FieldParams) : Nat → Byte → List Byte
  | 0, _ => []
  | count + 1, v => v :: p.powersFrom count (p.mul v p.gen)

/-- The powers 1, g, g^2, ..., g^254 of the generator. -/
def FieldParams.powers (p : FieldParams) : List Byte := p.powersFrom 255 1

/-- The index i in 0..254 with g^i = v, and 0 for v = 0 ("`log[0]` is defined as 0 by convention", R32). -/
def FieldParams.logOf (p : FieldParams) (v : Byte) : Byte :=
  if v = 0 then 0 else BitVec.ofNat 8 (p.powers.idxOf v)

/-- EXP and LOG (R31, R32): EXP[i] = g^i for i in 0..254, EXP[255] = 1, and LOG its inverse. -/
def FieldParams.rom (p : FieldParams) : Machine.Rom where
  exp := Vector.ofFn fun i => p.powers[i.val]?.getD 1
  log := Vector.ofFn fun v => p.logOf (BitVec.ofNat 8 v.val)

/-- The loop of R34 over `count` more indices, from index i and value v. -/
def FieldParams.fillTables (p : FieldParams) : Nat → Nat → Byte → Machine.Rom → Machine.Rom
  | 0, _, _, rom => rom
  | count + 1, i, v, rom =>
    p.fillTables count (i + 1) (p.mul v p.gen)
      { exp := rom.exp.setIfInBounds i v, log := rom.log.setIfInBounds v.toNat (BitVec.ofNat 8 i) }

/-- The whole procedure of R34, on tables with any contents: the loop over 0..254, then EXP[255] and LOG[0]. -/
def FieldParams.buildTables (p : FieldParams) (blank : Machine.Rom) : Machine.Rom :=
  let filled := p.fillTables 255 0 1 blank
  { exp := filled.exp.setIfInBounds 255 1, log := filled.log.setIfInBounds 0 0 }

namespace Machine

/-- The reset state of a block built with the parameters p (R230, R33). -/
def State.resetWith (p : FieldParams) : State := State.resetAround p.rom

/-- A model started with parameters: it must refuse illegal ones (R8). -/
def State.boot (p : FieldParams) : Except Refusal State :=
  if p.legal then .ok (State.resetWith p) else .error .illegalParameters

end Machine

end Sys2Proof
end

