-- ==== Sys2Proof/Machine/Operands.lean ====
section
/-! DEFINITION. Every operand form of a GFCORE command (spec 20 R50, R53; spec 30 R74): the general registers,
the coefficient and coordinate files and the ROM, read and written one entry at a time, and the runs of entries
that RNDC and PERM write. -/

namespace Sys2Proof.Machine

/-- R[r] (R21): every 4-bit index names a register, none is special. -/
def State.reg (s : State) (r : RegIdx) : Byte := s.regs[r.toNat]'(r.isLt)

/-- R[r] <- v (R21). -/
def State.setReg (s : State) (r : RegIdx) (v : Byte) : State :=
  { s with regs := s.regs.set r.toNat v (r.isLt) }

/-- Entry j of a file. The commands ask only for indices the file has (R50); past its end this is 0 (log 11). -/
def fileAt (file : Vector Byte 255) (j : Nat) : Byte := file[j]?.getD 0

/-- C[j] (R36). -/
def State.coefAt (s : State) (j : Nat) : Byte := fileAt s.coef j

/-- X[j] (R37). -/
def State.coordAt (s : State) (j : Nat) : Byte := fileAt s.coord j

/-- Writes a list of bytes to a file, the first at index `start` and each next one a place higher. -/
def writeRun (file : Vector Byte 255) (start : Nat) : List Byte → Vector Byte 255
  | [] => file
  | b :: bs => writeRun (file.setIfInBounds start b) (start + 1) bs

/-- C[j] <- v (R160). -/
def State.setCoef (s : State) (j : Nat) (v : Byte) : State :=
  { s with coef := s.coef.setIfInBounds j v }

/-- C[start], C[start+1], ... <- the bytes, in order (R166). -/
def State.setCoefRun (s : State) (start : Nat) (bs : List Byte) : State :=
  { s with coef := writeRun s.coef start bs }

/-- X[0], X[1], ... <- the bytes, in order, and XV <- 1 (R140), as one update (R141). -/
def State.loadCoords (s : State) (bs : List Byte) : State :=
  { s with coord := writeRun s.coord 0 bs, xv := true }

/-- The coordinates in use: X[0..N-1] as a list. -/
def State.coordList (s : State) : List Byte := (List.range s.n.toNat).map s.coordAt

/-- A ROM entry (R31, R32): the index is 8 bits, so every read is inside the table. -/
def romAt (table : Vector Byte 256) (i : Byte) : Byte := table[i.toNat]'(i.isLt)

def Rom.expAt (t : Rom) (i : Byte) : Byte := romAt t.exp i
def Rom.logAt (t : Rom) (i : Byte) : Byte := romAt t.log i

end Sys2Proof.Machine
end

