-- ==== Sys2Proof/Machine/Flags.lean ====
section
/-! DEFINITION. GFCORE has no condition codes (spec 10 R28); what stands here are its status bits as the host
sees them: the words of the status port (R26, R27, R29, R30) and the FAULT line (R43). -/

namespace Sys2Proof.Machine

/-- A field of a status word: v with its lowest bit at bit `at_`, all else 0. -/
def statusField {width : Nat} (v : BitVec width) (at_ : Nat) : BitVec 32 := v.setWidth 32 <<< at_

/-- STATUS (R26): FAULT in bit 0, CFGV in bit 1, XV in bit 2, CAUSE in bits 11:8, the rest 0. -/
def State.statusWord (s : State) : BitVec 32 :=
  statusField (BitVec.ofBool s.fault) 0 ||| statusField (BitVec.ofBool s.cfgv) 1
    ||| statusField (BitVec.ofBool s.xv) 2 ||| statusField s.cause 8

/-- CONFIG (R27): K in bits 7:0, N in bits 15:8, the rest 0. -/
def State.configWord (s : State) : BitVec 32 := statusField s.k 0 ||| statusField s.n 8

/-- A read of the status port (R30). It is a function of the state alone: a read has no effect, at any time. -/
def State.statusRead (s : State) (addr : BitVec 8) : BitVec 32 :=
  match addr.toNat with
  | 0x00 => s.statusWord
  | 0x01 => s.configWord
  | 0x02 => s.cc
  | 0x03 => s.fcmd
  | _ => 0

/-- The FAULT output line (R43). -/
def State.faultLine (s : State) : Bool := s.fault

end Sys2Proof.Machine
end

