-- ==== Sys2Proof/Machine/Ops.lean ====
section
/-! DEFINITION. The operations the commands share: completion, fault entry, reset, the checks of spec 60 R201
in their order, output, the two provider requests and the host's events. -/

namespace Sys2Proof.Machine

/-- The outcome of a command. -/
abbrev Result := Host.Outcome State Fault Refusal

/-! ### Completion, fault entry, reset -/

/-- A command that completes counts itself: CC <- (CC + 1) mod 2^32 (R25). -/
def State.tick (s : State) : State := { s with cc := s.cc + 1 }

/-- The CAUSE code of a fault (R200). -/
def FaultCause.code : FaultCause → BitVec 4
  | .illegal => 0x1
  | .divZero => 0x2
  | .config => 0x3
  | .sequence => 0x4
  | .index => 0x5
  | .entropy => 0x6

/-- Fault entry (R203): FAULT, CAUSE and FCMD together, and nothing else (R204). There is no handler and no
vector, and no command returns from it (R206): only `State.applyReset` leaves the faulted state. -/
def State.raise (s : State) (c : FaultCause) (cmd : CmdWord) : State :=
  { s with fault := true, cause := c.code, fcmd := cmd }

/-- RESET (R230): every field of R20 at its reset value; the ROM and the ports are not changed. -/
def State.applyReset (s : State) : State := { State.resetAround s.rom with io := s.io }

/-! ### The checks of R201 -/

/-- Step 2 for RNDC, PERM, RDX, EVAL and EVALP: CONFIG while CFGV = 0. -/
def State.requireConfig (s : State) (cmd : CmdWord) (go : Result) : Result :=
  if s.cfgv then go else .next (s.raise .config cmd)

/-- Step 3 for RDX and EVALP: SEQUENCE while XV = 0. -/
def State.requireCoords (s : State) (cmd : CmdWord) (go : Result) : Result :=
  if s.xv then go else .next (s.raise .sequence cmd)

/-- Step 4 for RDX and EVALP: INDEX when idx >= N. -/
def State.requireCoordIndex (s : State) (cmd : CmdWord) (idx : Byte) (go : Result) : Result :=
  if s.n ≤ idx then .next (s.raise .index cmd) else go

/-- Step 4 for WRC and RDC: INDEX when idx = 255 (R162). -/
def State.requireCoefIndex (s : State) (cmd : CmdWord) (idx : Byte) (go : Result) : Result :=
  if idx = 255 then .next (s.raise .index cmd) else go

/-- Step 5 for GDIV: DIV_ZERO when the divisor is 0 (R105). -/
def State.requireDivisor (s : State) (cmd : CmdWord) (b : Byte) (go : Result) : Result :=
  if b = 0 then .next (s.raise .divZero cmd) else go

/-- `is_perm` of R142. -/
def isPerm (p : List Byte) (n : Nat) : Bool :=
  decide (p.length = n) && p.all (fun b => decide (b.toNat < n)) && decide p.Nodup

/-! ### Output and provider requests -/

/-- `Emit(v)`: v goes to the end of OUTQ (R39). -/
def State.emit (s : State) (v : Byte) : State := { s with outq := s.outq ++ [v] }

/-- One request to a provider: no answer yet, or an answer and the state after it was taken. -/
inductive Reply where
  | waiting
  | answered (a : Answer) (s : State)
  deriving DecidableEq, Repr

/-- The answers left on the entropy port. -/
def State.setEntropy (s : State) (answers : List Answer) : State :=
  { s with io := { s.io with entropy := answers } }

/-- The answers left on the permutation port. -/
def State.setPermutations (s : State) (answers : List Answer) : State :=
  { s with io := { s.io with permutations := answers } }

/-- One request on the entropy port (R40): the next answer of that provider. -/
def State.requestEntropy (s : State) : Reply :=
  match s.io.entropy with
  | [] => .waiting
  | a :: rest => .answered a (s.setEntropy rest)

/-- One request on the permutation port (R41): the next answer of that provider. -/
def State.requestPermutation (s : State) : Reply :=
  match s.io.permutations with
  | [] => .waiting
  | a :: rest => .answered a (s.setPermutations rest)

/-! ### The host's events -/

/-- The state once the host's next event has been taken off the port. -/
def State.dropEvent (s : State) : State := { s with io := { s.io with events := s.io.events.tail } }

/-- The RESET input driven to a level. -/
def State.setResetLine (s : State) (level : Bool) : State := { s with io := { s.io with resetLine := level } }

/-- A word delivered before everything that the host was about to do, with RESET released. -/
def State.deliverFirst (s : State) (w : CmdWord) : State :=
  { s with io := { s.io with events := .command w :: s.io.events, resetLine := false } }

end Sys2Proof.Machine
end

