-- ==== Sys2Proof/Machine/Control.lean ====
section
/-! DEFINITION. The control and transfer commands (spec 41): NOP, LDI, CFG and OUT. -/

namespace Sys2Proof.Machine

/-- NOP (R120): only CC changes. -/
def execNop (s : State) : Result := .next s.tick

/-- LDI (R122). -/
def execLdi (rd : RegIdx) (imm : Byte) (s : State) : Result := .next (s.setReg rd imm).tick

/-- What a successful CFG writes (R124): K and N together, CFGV set, XV cleared. -/
def State.configure (s : State) (k n : Byte) : State := { s with k := k, n := n, cfgv := true, xv := false }

/-- CFG (R124): CONFIG when k < 2 or k > n, otherwise the block is configured, or configured anew (R126). -/
def execCfg (k n : Byte) (s : State) : Result :=
  if k < 2 ∨ n < k then .next (s.raise .config (encode (.cfg k n))) else .next (s.configure k n).tick

/-- OUT (R129). It completes when the host takes the byte; while the host does not, it waits (R236). -/
def execOut (rs1 : RegIdx) (s : State) : Result :=
  if s.io.hostTakes then .next (s.emit (s.reg rs1)).tick else .fault .awaitingHost

end Sys2Proof.Machine
end

