-- ==== Sys2Proof/Machine/Coordinates.lean ====
section
/-! DEFINITION. The coordinate-set permutation router (spec 42): PERM and RDX. -/

namespace Sys2Proof.Machine

/-- PERM with its answer (R140): a `Fail`, or a list that is no permutation of 0..N-1 (R142), raises ENTROPY
and leaves X and XV as they were (R141). -/
def State.takePermutation (s : State) : Answer → Result
  | .fail => .next (s.raise .entropy (encode .perm))
  | .ok p => if isPerm p s.n.toNat then .next (s.loadCoords p).tick else .next (s.raise .entropy (encode .perm))

/-- PERM (R140): no request is made before the configuration check (R144), and then exactly one. -/
def execPerm (s : State) : Result :=
  s.requireConfig (encode .perm) <|
    match s.requestPermutation with
    | .waiting => .fault .awaitingPermutation
    | .answered a s' => s'.takePermutation a

/-- RDX (R145): CONFIG, SEQUENCE and INDEX are checked in this order. -/
def execRdx (rd : RegIdx) (idx : Byte) (s : State) : Result :=
  s.requireConfig (encode (.rdx rd idx)) <|
  s.requireCoords (encode (.rdx rd idx)) <|
  s.requireCoordIndex (encode (.rdx rd idx)) idx <|
  .next (s.setReg rd (s.coordAt idx.toNat)).tick

end Sys2Proof.Machine
end

