-- ==== Sys2Proof/Machine/FieldEngine.lean ====
section
/-! DEFINITION. The field engine (spec 40): gf_add, gf_mul and gf_div on the datapath of R103, R106 and R109,
and the commands GADD, GMUL and GDIV. -/

namespace Sys2Proof.Machine

/-! ### Primitives of R11 -/

/-- `ct_is_zero(v)`: a NOR of the eight bits of v (R109 a), so no branch on v. -/
def ctIsZero (v : Byte) : BitVec 1 :=
  ~~~(v.extractLsb' 0 1 ||| v.extractLsb' 1 1 ||| v.extractLsb' 2 1 ||| v.extractLsb' 3 1
    ||| v.extractLsb' 4 1 ||| v.extractLsb' 5 1 ||| v.extractLsb' 6 1 ||| v.extractLsb' 7 1)

/-- `mask8(b)`: 0xFF for 1, 0x00 for 0: the bit copied to every place. -/
def mask8 (b : BitVec 1) : BitVec 8 := b.signExtend 8

/-- `mask9(b)`: 0x1FF for 1, 0x000 for 0. -/
def mask9 (b : BitVec 1) : BitVec 9 := b.signExtend 9

/-! ### The three operations (R12) -/

/-- gf_add(a, b) = a ^ b (R100). -/
def gfAdd (a b : Byte) : Byte := a ^^^ b

/-- The 9-bit log sum of R103 folded once: (la + lb) mod 255 for table entries, which are at most 254. -/
def foldSum (la lb : Byte) : BitVec 9 :=
  let sum := la.setWidth 9 + lb.setWidth 9
  sum - (255 &&& mask9 (BitVec.ofBool (decide (255 ≤ sum.toNat))))

/-- The 9-bit log difference of R106 with 255 added where it is negative, as an 8-bit index. -/
def wrapDiff (la lb : Byte) : BitVec 9 :=
  let diff := la.setWidth 9 - lb.setWidth 9
  diff + (255 &&& mask9 (diff.extractLsb' 8 1))

/-- gf_mul(a, b) (R103): both logs are read and folded whatever a and b are, and the result is masked. -/
def gfMul (t : Rom) (a b : Byte) : Byte :=
  t.expAt ((foldSum (t.logAt a) (t.logAt b)).setWidth 8) &&& ~~~(mask8 (ctIsZero a ||| ctIsZero b))

/-- gf_div(a, b) for b not 0 (R106). -/
def gfDiv (t : Rom) (a b : Byte) : Byte :=
  t.expAt ((wrapDiff (t.logAt a) (t.logAt b)).setWidth 8) &&& ~~~(mask8 (ctIsZero a))

/-! ### Commands -/

/-- GADD (R100). -/
def execGadd (rd rs1 rs2 : RegIdx) (s : State) : Result :=
  .next (s.setReg rd (gfAdd (s.reg rs1) (s.reg rs2))).tick

/-- GMUL (R102). -/
def execGmul (rd rs1 rs2 : RegIdx) (s : State) : Result :=
  .next (s.setReg rd (gfMul s.rom (s.reg rs1) (s.reg rs2))).tick

/-- GDIV (R105): the divisor is tested first, for every dividend (R107, C3). -/
def execGdiv (rd rs1 rs2 : RegIdx) (s : State) : Result :=
  s.requireDivisor (encode (.gdiv rd rs1 rs2)) (s.reg rs2)
    (.next (s.setReg rd (gfDiv s.rom (s.reg rs1) (s.reg rs2))).tick)

end Sys2Proof.Machine
end

