-- ==== Sys2Proof/Machine/Polynomial.lean ====
section
/-! DEFINITION. The polynomial and evaluator commands (spec 43): WRC, RDC, RNDC, EVAL and EVALP. -/

namespace Sys2Proof.Machine

/-- WRC (R160). -/
def execWrc (rs1 : RegIdx) (idx : Byte) (s : State) : Result :=
  s.requireCoefIndex (encode (.wrc rs1 idx)) idx <| .next (s.setCoef idx.toNat (s.reg rs1)).tick

/-- RDC (R163). -/
def execRdc (rd : RegIdx) (idx : Byte) (s : State) : Result :=
  s.requireCoefIndex (encode (.rdc rd idx)) idx <| .next (s.setReg rd (s.coefAt idx.toNat)).tick

/-- RNDC with its answer (R166, R167): the first byte goes to C[1]. `Ok` carries exactly the K-1 bytes asked
for (R40); a list of another length is no answer of that port (log 5). -/
def State.takeCoefficients (s : State) : Answer → Result
  | .fail => .next (s.raise .entropy (encode .rndc))
  | .ok bs => if bs.length = s.k.toNat - 1 then .next (s.setCoefRun 1 bs).tick else .fault .entropyAnswerLength

/-- RNDC (R166): no request is made before the configuration check, and then exactly one. -/
def execRndc (s : State) : Result :=
  s.requireConfig (encode .rndc) <|
    match s.requestEntropy with
    | .waiting => .fault .awaitingEntropy
    | .answered a s' => s'.takeCoefficients a

/-- The fold of R171 over C[j-1], ..., C[0], from value v. -/
def hornerFold (t : Rom) (coef : Vector Byte 255) (x : Byte) : Nat → Byte → Byte
  | 0, v => v
  | j + 1, v => hornerFold t coef x j (gfAdd (fileAt coef j) (gfMul t v x))

/-- `horner(x)` (R171): the short-circuit at 0, otherwise the fold from C[K-1] down. The spec calls it with
K >= 2 only; for K = 0, which no configured block has, this reads C[0] (log 11). -/
def State.horner (s : State) (x : Byte) : Byte :=
  if x = 0 then s.coefAt 0
  else hornerFold s.rom s.coef x (s.k.toNat - 1) (s.coefAt (s.k.toNat - 1))

/-- EVAL (R170). -/
def execEval (rd rs1 : RegIdx) (s : State) : Result :=
  s.requireConfig (encode (.eval rd rs1)) <| .next (s.setReg rd (s.horner (s.reg rs1))).tick

/-- EVALP (R175): CONFIG, SEQUENCE and INDEX are checked in this order. -/
def execEvalp (rd : RegIdx) (idx : Byte) (s : State) : Result :=
  s.requireConfig (encode (.evalp rd idx)) <|
  s.requireCoords (encode (.evalp rd idx)) <|
  s.requireCoordIndex (encode (.evalp rd idx)) idx <|
  .next (s.setReg rd (s.horner (s.coordAt idx.toNat))).tick

end Sys2Proof.Machine
end

