-- ==== Sys2Proof/Machine/Dispatch.lean ====
section
/-! DEFINITION. The meaning of every command: one arm for each row of the opcode table (spec 30 R75). -/

namespace Sys2Proof.Machine

def exec (i : Instr) (s : State) : Host.Outcome State Fault Refusal :=
  match i with
  | .nop => Sys2Proof.Machine.execNop s
  | .gadd rd rs1 rs2 => Sys2Proof.Machine.execGadd rd rs1 rs2 s
  | .gmul rd rs1 rs2 => Sys2Proof.Machine.execGmul rd rs1 rs2 s
  | .gdiv rd rs1 rs2 => Sys2Proof.Machine.execGdiv rd rs1 rs2 s
  | .ldi rd imm => Sys2Proof.Machine.execLdi rd imm s
  | .cfg k n => Sys2Proof.Machine.execCfg k n s
  | .wrc rs1 idx => Sys2Proof.Machine.execWrc rs1 idx s
  | .rdc rd idx => Sys2Proof.Machine.execRdc rd idx s
  | .rndc => Sys2Proof.Machine.execRndc s
  | .perm => Sys2Proof.Machine.execPerm s
  | .rdx rd idx => Sys2Proof.Machine.execRdx rd idx s
  | .eval rd rs1 => Sys2Proof.Machine.execEval rd rs1 s
  | .evalp rd idx => Sys2Proof.Machine.execEvalp rd idx s
  | .out rs1 => Sys2Proof.Machine.execOut rs1 s

end Sys2Proof.Machine
end

