-- ==== Sys2Proof/Machine/Port.lean ====
section
/-! DEFINITION. What the block does with the host's next event: a word on the command port (spec 60 R205, spec
30 R76, spec 70 R237) or a change of the RESET input (spec 60 R210, spec 70 R230). -/

namespace Sys2Proof.Machine

/-- A command word accepted by the port. While FAULT = 1 it is refused without being decoded and has no effect
(R205). Otherwise it is decoded: an illegal word raises ILLEGAL (R76, R77), a legal one executes. -/
def acceptWord (w : CmdWord) (s : State) : Result :=
  if s.fault then .next s
  else
    match decode w with
    | .error _ => .next (s.raise .illegal w)
    | .ok i => exec i s

/-- One event of the host. A word that arrives while RESET is asserted is not accepted (R230). RESET wins over
the command it meets, whose effects are lost (R210). The state is the reset state while RESET is asserted and
when it is released (R230). A release without an assertion is no change of the input. -/
def deliver (e : HostEvent) (s : State) : Result :=
  match e with
  | .command w => if s.io.resetLine then .next s else acceptWord w s
  | .resetAssert => .next (s.applyReset.setResetLine true)
  | .resetDuring _ => .next (s.applyReset.setResetLine true)
  | .resetRelease => if s.io.resetLine then .next (s.applyReset.setResetLine false) else .next s

/-- The host's next event taken and carried out. Without one the block is idle and keeps its state (R218). -/
def deliverNext (s : State) : Result :=
  match s.io.events with
  | [] => .next s
  | e :: _ => deliver e s.dropEvent

end Sys2Proof.Machine
end

