-- ==== Sys2Proof/Machine/Step.lean ====
section
/-! DEFINITION. The step of the machine, and the placing of one word where the next step takes it. -/

namespace Sys2Proof.Machine

/-- One step: the host's next event is carried out (Machine/Port.lean). A command is one step, start to finish
(spec 20 R55). -/
def step (s : State) : Host.Outcome State Fault Refusal := deliverNext s

/-- The host delivers the word next: GFCORE has no fetch (spec 10 R24), so the word is put first among the
host's events, with RESET released (log 3). -/
def State.withFetchWord (s : State) (nbits w : Nat) : State := s.deliverFirst (BitVec.ofNat 32 (w % 2 ^ nbits))

end Sys2Proof.Machine
end

