-- ==== Sys2Proof/Machine/Assembler.lean ====
section
/-! DEFINITION. The assembler of spec 30 R79 and R80: from an operand-level line to the one command word it
stands for, and from the text of a line to that. The spec fixes the forms; what it leaves open of the text is
chosen in log 16, and named where it is settled. -/

namespace Sys2Proof

/-- A register or immediate operand as a field of the word. -/
def asmReg (r : Nat) : RegIdx := BitVec.ofNat 4 r
def asmImm (v : Nat) : Byte := BitVec.ofNat 8 v

/-- The word that a line encodes as (R79), each pseudo-instruction as its one expansion (R80). -/
def Asm.toWord : Asm → CmdWord
  | .nop => encode .nop
  | .gadd d a b => encode (.gadd (asmReg d) (asmReg a) (asmReg b))
  | .gmul d a b => encode (.gmul (asmReg d) (asmReg a) (asmReg b))
  | .gdiv d a b => encode (.gdiv (asmReg d) (asmReg a) (asmReg b))
  | .ldi d v => encode (.ldi (asmReg d) (asmImm v))
  | .cfg k n => encode (.cfg (asmImm k) (asmImm n))
  | .wrc v a => encode (.wrc (asmReg a) (asmImm v))
  | .rdc d v => encode (.rdc (asmReg d) (asmImm v))
  | .rndc => encode .rndc
  | .perm => encode .perm
  | .rdx d v => encode (.rdx (asmReg d) (asmImm v))
  | .eval d a => encode (.eval (asmReg d) (asmReg a))
  | .evalp d v => encode (.evalp (asmReg d) (asmImm v))
  | .out a => encode (.out (asmReg a))
  | .gsub d a b => encode (.gadd (asmReg d) (asmReg a) (asmReg b))
  | .clr d => encode (.ldi (asmReg d) 0)
  | .gsq d a => encode (.gmul (asmReg d) (asmReg a) (asmReg a))
  | .word w => BitVec.ofNat 32 w

/-- The assembler on a line's operands; none is an assembly error (R79). -/
def assemble (a : Asm) : Option CmdWord := if a.wellFormed then some a.toWord else none

/-! ### Text -/

/-- DESIGN CHOICE (log 16): which characters are blank. -/
def isBlank (c : Char) : Bool := c == ' ' || c == '\t' || c == '\r'

def isDecDigit (c : Char) : Bool := decide ('0'.toNat ≤ c.toNat) && decide (c.toNat ≤ '9'.toNat)

/-- The value of a hexadecimal digit. DESIGN CHOICE (log 16): of either case. -/
def hexDigit (c : Char) : Option Nat :=
  if isDecDigit c then some (c.toNat - '0'.toNat)
  else if 'a'.toNat ≤ c.toNat ∧ c.toNat ≤ 'f'.toNat then some (c.toNat - 'a'.toNat + 10)
  else if 'A'.toNat ≤ c.toNat ∧ c.toNat ≤ 'F'.toNat then some (c.toNat - 'A'.toNat + 10)
  else none

/-- Digits of a base read onto an accumulator; none if a character is no digit of it. DESIGN CHOICE (log 16):
leading zeros are read, and the underscore that R13 writes between digit groups is no digit, so text that holds
one is an error; neither R13 nor R79 says whether assembler text may. -/
def readDigits (base : Nat) : List Char → Nat → Option Nat
  | [], acc => some acc
  | c :: cs, acc =>
    match hexDigit c with
    | none => none
    | some d => if d < base then readDigits base cs (acc * base + d) else none

/-- At least one digit of a base, and nothing else. -/
def readNumeral (base : Nat) (cs : List Char) : Option Nat := if cs = [] then none else readDigits base cs 0

/-- A number "in decimal or with a `0x` prefix", as R79 writes immediates. DESIGN CHOICE (log 16): the operand of
`.word`, for which R79 gives no form, is written in the same two ways. -/
def readNumber : List Char → Option Nat
  | '0' :: 'x' :: cs => readNumeral 16 cs
  | cs => readNumeral 10 cs

/-- A register name: `r` and a decimal number. -/
def readReg : List Char → Option Nat
  | 'r' :: cs => readNumeral 10 cs
  | _ => none

/-- A line without its comment: "`;` starts a comment" (R79). -/
def stripComment (line : List Char) : List Char := line.takeWhile (· != ';')

/-- A text without the blanks at its two ends. DESIGN CHOICE (log 16): a line and an operand may have any number of
them there. -/
def trimBlanks (cs : List Char) : List Char := ((cs.dropWhile isBlank).reverse.dropWhile isBlank).reverse

/-- The parts of a text between commas. -/
def splitCommas : List Char → List (List Char)
  | [] => [[]]
  | c :: cs =>
    match splitCommas cs with
    | [] => [[c]]
    | part :: rest => if c = ',' then [] :: part :: rest else (c :: part) :: rest

/-- The comma-separated operands of a line; no text is no operand. DESIGN CHOICE (log 16): around a comma stand any
blanks or none, where R79 shows one after it. -/
def readOperands (cs : List Char) : List (List Char) :=
  if trimBlanks cs = [] then [] else (splitCommas cs).map trimBlanks

/-! Operand shapes of R79: each takes the mnemonic's constructor and reads its operands. -/

def readNone (line : Asm) : List (List Char) → Option Asm
  | [] => some line
  | _ => none

def readRrr (line : Nat → Nat → Nat → Asm) : List (List Char) → Option Asm
  | [d, a, b] => do return line (← readReg d) (← readReg a) (← readReg b)
  | _ => none

def readRr (line : Nat → Nat → Asm) : List (List Char) → Option Asm
  | [d, a] => do return line (← readReg d) (← readReg a)
  | _ => none

def readR (line : Nat → Asm) : List (List Char) → Option Asm
  | [a] => do return line (← readReg a)
  | _ => none

def readRi (line : Nat → Nat → Asm) : List (List Char) → Option Asm
  | [d, v] => do return line (← readReg d) (← readNumber v)
  | _ => none

def readIr (line : Nat → Nat → Asm) : List (List Char) → Option Asm
  | [v, a] => do return line (← readNumber v) (← readReg a)
  | _ => none

def readIi (line : Nat → Nat → Asm) : List (List Char) → Option Asm
  | [k, n] => do return line (← readNumber k) (← readNumber n)
  | _ => none

def readI (line : Nat → Asm) : List (List Char) → Option Asm
  | [w] => do return line (← readNumber w)
  | _ => none

/-- The line with a given mnemonic (R79, R80); none for a mnemonic that does not exist. -/
def readLine (mnemonic : List Char) (ops : List (List Char)) : Option Asm :=
  if mnemonic = ['n', 'o', 'p'] then readNone .nop ops
  else if mnemonic = ['g', 'a', 'd', 'd'] then readRrr .gadd ops
  else if mnemonic = ['g', 'm', 'u', 'l'] then readRrr .gmul ops
  else if mnemonic = ['g', 'd', 'i', 'v'] then readRrr .gdiv ops
  else if mnemonic = ['l', 'd', 'i'] then readRi .ldi ops
  else if mnemonic = ['c', 'f', 'g'] then readIi .cfg ops
  else if mnemonic = ['w', 'r', 'c'] then readIr .wrc ops
  else if mnemonic = ['r', 'd', 'c'] then readRi .rdc ops
  else if mnemonic = ['r', 'n', 'd', 'c'] then readNone .rndc ops
  else if mnemonic = ['p', 'e', 'r', 'm'] then readNone .perm ops
  else if mnemonic = ['r', 'd', 'x'] then readRi .rdx ops
  else if mnemonic = ['e', 'v', 'a', 'l'] then readRr .eval ops
  else if mnemonic = ['e', 'v', 'a', 'l', 'p'] then readRi .evalp ops
  else if mnemonic = ['o', 'u', 't'] then readR .out ops
  else if mnemonic = ['g', 's', 'u', 'b'] then readRrr .gsub ops
  else if mnemonic = ['c', 'l', 'r'] then readR .clr ops
  else if mnemonic = ['g', 's', 'q'] then readRr .gsq ops
  else if mnemonic = ['.', 'w', 'o', 'r', 'd'] then readI .word ops
  else none

/-- One line of text: a line with a command gives its word, and none is an assembly error (R79). DESIGN CHOICE
(log 16): an empty line, or one with a comment only, is no error and gives no word; R79 says one command per line
and does not speak of a line without one. DESIGN CHOICE (log 16): blanks may stand before the
mnemonic, which ends at the next blank, and any number of them after it, where R79 shows one. -/
def assembleText (line : List Char) : Option (List CmdWord) :=
  let body := trimBlanks (stripComment line)
  if body = [] then some []
  else do
    let parsed ← readLine (body.takeWhile (!isBlank ·)) (readOperands (body.dropWhile (!isBlank ·)))
    return [← assemble parsed]

end Sys2Proof
end

