-- ==== Sys2Proof/Machine/Timing.lean ====
section
/-! DEFINITION. The latencies of spec 70 R240 and R241, in abstract units. No meaning uses them: they are a
function of a command and the state it starts in (log 12). -/

namespace Sys2Proof.Machine

/-- The command is executed and completes without a fault. -/
def completes (i : Instr) (s : State) : Bool :=
  match exec i s with
  | .next t => !t.fault
  | _ => false

/-- The units of EVAL and EVALP at coordinate x (R240, R241): K, or 1 for x = 0 with the short-circuit. -/
def evalUnits (shortcut : Bool) (k x : Byte) : Nat := if shortcut ∧ x = 0 then 1 else k.toNat

/-- The units of a command that completes (R240), less those that the provider and output handshakes add. -/
def units (shortcut : Bool) (s : State) : Instr → Nat
  | .nop | .gadd _ _ _ | .gmul _ _ _ | .ldi _ _ | .cfg _ _ | .wrc _ _ | .rdc _ _ | .rdx _ _ => 1
  | .gdiv _ _ _ => 1
  | .out _ => 1
  | .rndc => 1
  | .perm => s.n.toNat
  | .eval _ rs1 => evalUnits shortcut s.k (s.reg rs1)
  | .evalp _ idx => evalUnits shortcut s.k (s.coordAt idx.toNat)

/-- The latency of a command in a state; none where the spec leaves it unspecified ("any faulting command") or
the command waits. -/
def latency (i : Instr) (s : State) : Option Nat :=
  if completes i s then some (units Config.evalZeroShortcut s i) else none

end Sys2Proof.Machine
end

