-- ==== Sys2Proof/Safety.lean ====
section
/-! DEFINITION. The terms in which claims about GFCORE are stated: what a command changes and leaves alone, what
a fault leaves behind, and the invariant of the machine. -/

namespace Sys2Proof

/-- The sum over j below a bound of C[j]·x^j, with x^0 = 1 (spec 43 R173): the value of the polynomial at x. -/
def FieldParams.polyValue (p : FieldParams) (coef : Vector Byte 255) (x : Byte) : Nat → Byte
  | 0 => 0
  | j + 1 => p.polyValue coef x j ^^^ p.mul (Machine.fileAt coef j) (p.pow x j)

namespace Machine

/-- t is s after a command that wrote v to R[rd] and completed: the frame of GADD, GMUL, GDIV, LDI, RDC, RDX,
EVAL and EVALP (spec 10 R21). -/
structure RegWritten (s t : State) (rd : RegIdx) (v : Byte) : Prop where
  value : t.reg rd = v
  other_regs : ∀ r, r ≠ rd → t.reg r = s.reg r
  counted : t.cc = s.cc + 1
  coef : t.coef = s.coef
  coord : t.coord = s.coord
  k : t.k = s.k
  n : t.n = s.n
  cfgv : t.cfgv = s.cfgv
  xv : t.xv = s.xv
  fault : t.fault = s.fault
  cause : t.cause = s.cause
  fcmd : t.fcmd = s.fcmd
  outq : t.outq = s.outq
  rom : t.rom = s.rom
  io : t.io = s.io

/-- t is s after a command that wrote the coefficient file only, and completed: the frame of WRC and RNDC, but
for the provider port. What C holds is said apart. -/
structure OnlyCoefWritten (s t : State) : Prop where
  regs : ∀ r, t.reg r = s.reg r
  counted : t.cc = s.cc + 1
  coord : t.coord = s.coord
  k : t.k = s.k
  n : t.n = s.n
  cfgv : t.cfgv = s.cfgv
  xv : t.xv = s.xv
  fault : t.fault = s.fault
  cause : t.cause = s.cause
  fcmd : t.fcmd = s.fcmd
  outq : t.outq = s.outq
  rom : t.rom = s.rom

/-- t is s after a PERM that completed, but for the provider port: XV is set (spec 42 R140), and what X holds is
said apart. -/
structure CoordsLoaded (s t : State) : Prop where
  xv : t.xv = true
  regs : ∀ r, t.reg r = s.reg r
  counted : t.cc = s.cc + 1
  coef : t.coef = s.coef
  k : t.k = s.k
  n : t.n = s.n
  cfgv : t.cfgv = s.cfgv
  fault : t.fault = s.fault
  cause : t.cause = s.cause
  fcmd : t.fcmd = s.fcmd
  outq : t.outq = s.outq
  rom : t.rom = s.rom

/-- t is s after fault entry with a CAUSE code and the word that faulted, and nothing else changed (spec 60
R203, R204), but for the ports. -/
structure FaultTaken (s t : State) (code : BitVec 4) (cmd : CmdWord) : Prop where
  fault : t.fault = true
  cause : t.cause = code
  fcmd : t.fcmd = cmd
  regs : ∀ r, t.reg r = s.reg r
  coef : t.coef = s.coef
  coord : t.coord = s.coord
  k : t.k = s.k
  n : t.n = s.n
  cfgv : t.cfgv = s.cfgv
  xv : t.xv = s.xv
  cc : t.cc = s.cc
  outq : t.outq = s.outq
  rom : t.rom = s.rom

/-- Every field of R20 but the ROM at the reset value of R230. -/
structure State.AtReset (s : State) : Prop where
  regs : ∀ r, s.reg r = 0
  coef : ∀ j, s.coefAt j = 0
  coord : ∀ j, s.coordAt j = 0
  k : s.k = 0
  n : s.n = 0
  cfgv : s.cfgv = false
  xv : s.xv = false
  fault : s.fault = false
  cause : s.cause = 0
  fcmd : s.fcmd = 0
  cc : s.cc = 0
  outq : s.outq = []

/-- The host's next event is the word w, es follow it, and the block will execute it: RESET is released and no
fault is recorded. -/
structure State.Receives (s : State) (w : CmdWord) (es : List HostEvent) : Prop where
  events : s.io.events = .command w :: es
  released : s.io.resetLine = false
  unfaulted : s.fault = false

/-- The two events that assert RESET. -/
def HostEvent.assertsReset : HostEvent → Bool
  | .resetAssert | .resetDuring _ => true
  | .command _ | .resetRelease => false

/-- The invariant of a block with the parameters p.
* its ROM holds the tables of p (R33);
* K and N are legal once configured (R27) and 0 before (R27);
* a valid coordinate set is a permutation of 0..N-1 of a configured block (R38);
* the fault record is empty before a fault (R26, R29) and its code one of R200 after it;
* while RESET is asserted the state is the reset state (R230). -/
structure Inv (p : FieldParams) (s : State) : Prop where
  rom : s.rom = p.rom
  configured : s.cfgv = true → 2 ≤ s.k.toNat ∧ s.k.toNat ≤ s.n.toNat
  unconfigured : s.cfgv = false → s.k = 0 ∧ s.n = 0
  coords : s.xv = true → s.cfgv = true ∧ isPerm s.coordList s.n.toNat = true
  no_record : s.fault = false → s.cause = 0 ∧ s.fcmd = 0
  record : s.fault = true → 1 ≤ s.cause.toNat ∧ s.cause.toNat ≤ 6
  in_reset : s.io.resetLine = true → s.AtReset

/-- A run is safe so far: the block has recorded no fault. -/
def State.safe (s : State) : Bool := !s.fault

/-- A change of the state carried through an outcome. -/
def mapNext (f : State → State) : Result → Result
  | .next s => .next (f s)
  | .fault r => .fault r
  | .refused r => .refused r

/-- The same state with another ROM. -/
def State.withRom (s : State) (rom : Rom) : State := { s with rom := rom }

/-- The same ROM with another entry EXP[255]. -/
def Rom.withExp255 (t : Rom) (v : Byte) : Rom := { t with exp := t.exp.setIfInBounds 255 v }

/-- The same ROM with another entry LOG[0]. -/
def Rom.withLog0 (t : Rom) (v : Byte) : Rom := { t with log := t.log.setIfInBounds 0 v }

end Machine

end Sys2Proof
end

