-- ==== Sys2Proof/Certificates/Slice0/Obligations.lean ====
section
/-! DEFINITION. The statements about GFCORE that the provers settle. Each docstring names the rules of spec/ that
its statement formalises. -/

open Sys2Proof Sys2Proof.Machine

/-! ### Encoding (spec 30) -/

/-- R72, R76, R79: no operand bit of any command is dropped or moved by encoding and decoding. -/
def Obligations.DecodeOfEncodeIsTheCommand : Prop :=
  ∀ i : Instr, decode (encode i) = .ok i

/-- R70, R76: a legal word is the only word of its command, so nothing of it is lost, reserved bits included. -/
def Obligations.EncodeOfDecodeIsTheWord : Prop :=
  ∀ (w : CmdWord) (i : Instr), decode w = .ok i → encode i = w

/-- R75: the match and mask columns, written out from the rule. -/
def Obligations.WordIsOfOpcodeExactlyOnMatchAndMask : Prop :=
  ∀ row ∈ ([(.nop, 0x00000000, 0xFFFFFFFF), (.gadd, 0x10000000, 0xF000FFFF), (.gmul, 0x20000000, 0xF000FFFF),
      (.gdiv, 0x30000000, 0xF000FFFF), (.ldi, 0x40000000, 0xF0FF00FF), (.cfg, 0x50000000, 0xFFFF0000),
      (.wrc, 0x60000000, 0xFF0F00FF), (.rdc, 0x70000000, 0xF0FF00FF), (.rndc, 0x80000000, 0xFFFFFFFF),
      (.perm, 0x90000000, 0xFFFFFFFF), (.rdx, 0xA0000000, 0xF0FF00FF), (.eval, 0xB0000000, 0xF00FFFFF),
      (.evalp, 0xC0000000, 0xF0FF00FF), (.out, 0xD0000000, 0xFF0FFFFF)] : List (Op × CmdWord × CmdWord)),
    ∀ w : CmdWord, (∃ i, decode w = .ok i ∧ i.op = row.1) ↔ w &&& row.2.2 = row.2.1

/-- R77, with the reserved bits of each format written out from R72: exactly the words of opcodes 0xE and 0xF
and the words with a reserved bit set are illegal; such a word, received, takes the ILLEGAL fault and changes nothing
else; and a step that receives any other word never ends in a fault with the code of ILLEGAL. -/
def Obligations.IllegalWordsAndNoOthersRaiseIllegal : Prop :=
  ∀ w : CmdWord,
    let illegal := 0xE ≤ (w >>> 28).toNat ∨
      ∃ row ∈ ([(0x0, 0x0FFFFFFF), (0x1, 0x0000FFFF), (0x2, 0x0000FFFF), (0x3, 0x0000FFFF), (0x4, 0x00FF00FF),
        (0x5, 0x0FFF0000), (0x6, 0x0F0F00FF), (0x7, 0x00FF00FF), (0x8, 0x0FFFFFFF), (0x9, 0x0FFFFFFF),
        (0xA, 0x00FF00FF), (0xB, 0x000FFFFF), (0xC, 0x00FF00FF), (0xD, 0x0F0FFFFF)] : List (Nat × CmdWord)),
        (w >>> 28).toNat = row.1 ∧ w &&& row.2 ≠ 0
    (¬ illegal ↔ ∃ i, decode w = .ok i) ∧
    (illegal → ∀ s es, s.Receives w es →
      ∃ t, step s = .next t ∧ FaultTaken s t 0x1 w ∧ t.io = { s.io with events := es }) ∧
    (¬ illegal → ∀ s es t, s.Receives w es → step s = .next t → t.fault = true → t.cause ≠ 0x1)

/-- R81: the rule's worked encodings, from the line to the word and from the word to the command. -/
def Obligations.WorkedEncodings : Prop :=
  ∀ row ∈ ([(.gadd 3 1 2, 0x13120000, .gadd 3 1 2), (.gmul 3 1 2, 0x23120000, .gmul 3 1 2),
      (.gdiv 5 3 2, 0x35320000, .gdiv 5 3 2), (.ldi 1 0x57, 0x41005700, .ldi 1 0x57),
      (.cfg 2 3, 0x50000203, .cfg 2 3), (.wrc 0 0, 0x60000000, .wrc 0 0), (.wrc 2 7, 0x60700200, .wrc 7 2),
      (.rdc 4 1, 0x74000100, .rdc 4 1), (.rndc, 0x80000000, .rndc), (.perm, 0x90000000, .perm),
      (.rdx 4 2, 0xA4000200, .rdx 4 2), (.eval 6 2, 0xB6200000, .eval 6 2),
      (.evalp 1 0, 0xC1000000, .evalp 1 0), (.out 15, 0xD0F00000, .out 15)] : List (Asm × CmdWord × Instr)),
    assemble row.1 = some row.2.1 ∧ decode row.2.1 = .ok row.2.2

/-- R79, R80: each assembler line with operands in range gives the one word of its command, which decodes to that
command, each pseudo-instruction the word of its expansion, and `.word` its own operand. -/
def Obligations.AssembledLinesDecodeToTheirCommand : Prop :=
  let gives (a : Asm) (i : Instr) := ∃ w, assemble a = some w ∧ decode w = .ok i
  ∀ d < 16, ∀ a < 16, ∀ b < 16, ∀ v < 256, ∀ u < 256, ∀ (D A B : RegIdx) (V U : Byte),
    D.toNat = d → A.toNat = a → B.toNat = b → V.toNat = v → U.toNat = u →
    gives .nop .nop ∧ gives (.gadd d a b) (.gadd D A B) ∧ gives (.gmul d a b) (.gmul D A B) ∧
    gives (.gdiv d a b) (.gdiv D A B) ∧ gives (.ldi d v) (.ldi D V) ∧ gives (.cfg v u) (.cfg V U) ∧
    gives (.wrc v a) (.wrc A V) ∧ gives (.rdc d v) (.rdc D V) ∧ gives .rndc .rndc ∧ gives .perm .perm ∧
    gives (.rdx d v) (.rdx D V) ∧ gives (.eval d a) (.eval D A) ∧ gives (.evalp d v) (.evalp D V) ∧
    gives (.out a) (.out A) ∧ gives (.gsub d a b) (.gadd D A B) ∧ gives (.clr d) (.ldi D 0) ∧
    gives (.gsq d a) (.gmul D A A) ∧ ∀ w : CmdWord, assemble (.word w.toNat) = some w

/-! ### The step, the halt and RESET (spec 20, 60, 70) -/

/-- R55, R76: the step that meets a legal word is that command's meaning, on the state from which the word has
been taken. -/
def Obligations.StepRunsTheDecodedCommand : Prop :=
  ∀ (s : State) (w : CmdWord) (es : List HostEvent) (i : Instr), s.Receives w es → decode w = .ok i →
    step s = exec i { s with io := { s.io with events := es } }

/-- R205: a halted block takes any number of words off the port, with no other effect whatever the words are;
status reads give what they gave. -/
def Obligations.HaltedBlockRefusesEveryWord : Prop :=
  ∀ (ws : List CmdWord) (es : List HostEvent) (s : State), s.fault = true → s.io.resetLine = false →
    s.io.events = ws.map .command ++ es →
    ∃ t, Host.Core.run core ws.length s = .next t ∧ t = { s with io := { s.io with events := es } } ∧
      ∀ a, t.statusRead a = s.statusRead a

/-- R230, R210: RESET from any state, halted or not, and whatever command it meets; words that come while it is
asserted; its release; the ROM stays. Two clauses are the model's choice and no rule's: that a word met in RESET is
used up from the events (one event is one offer of a word, log 8), and that a RESET that falls on an executing
command leaves the providers' answers as they were (log 18). -/
def Obligations.ResetGivesTheResetState : Prop :=
  ∀ (s : State) (e : HostEvent) (es : List HostEvent), s.io.events = e :: es →
    (e.assertsReset = true → ∃ t, step s = .next t ∧ t.AtReset ∧ t.rom = s.rom ∧ t.faultLine = false ∧
      t.io = { s.io with events := es, resetLine := true }) ∧
    (e = .resetRelease → s.io.resetLine = true → ∃ t, step s = .next t ∧ t.AtReset ∧ t.rom = s.rom ∧
      t.faultLine = false ∧ t.io = { s.io with events := es, resetLine := false }) ∧
    (∀ w, e = .command w → s.io.resetLine = true →
      step s = .next { s with io := { s.io with events := es } })

/-- R206: RESET takes a halted block to the reset state, FAULT, CAUSE and FCMD cleared with the rest, and a step that
leaves the halted state is such a RESET, so no command clears a fault. RESET is not released without having been
asserted in a state of the invariant, hence the premise. -/
def Obligations.OnlyResetLeavesTheHaltedState : Prop :=
  ∀ (p : FieldParams) (s t : State), Inv p s → s.fault = true → step s = .next t →
    ((∃ e es, s.io.events = e :: es ∧ e.assertsReset = true) → t.AtReset) ∧
    (t.fault = false → (∃ e es, s.io.events = e :: es ∧ e.assertsReset = true) ∧ t.AtReset)

/-- R218: with no event of the host the block is idle and keeps all its state. That a step without an event is a
next state, and that a release without an assertion is one that changes only the events left, is the model's choice
(logs 8 and 9). -/
def Obligations.IdleBlockKeepsItsState : Prop :=
  ∀ s : State, (s.io.events = [] → step s = .next s) ∧
    (∀ es, s.io.events = .resetRelease :: es → s.io.resetLine = false →
      step s = .next { s with io := { s.io with events := es } })

/-! ### The field and its tables (spec 00, 10, 40) -/

/-- R34: `clmul_mod` is the product of the polynomials over GF(2) reduced modulo GF_POLY, in the polynomial ring
of the library. -/
def Obligations.FieldProductIsThePolynomialProduct : Prop :=
  let toPoly : BitVec 9 → Polynomial (ZMod 2) := fun v =>
    ∑ j ∈ Finset.range 9, if v.getLsbD j then Polynomial.X ^ j else 0
  ∀ p : FieldParams, p.poly.getLsbD 8 = true → ∀ a b : Byte,
    toPoly ((p.mul a b).setWidth 9) =
      (toPoly (a.setWidth 9) * toPoly (b.setWidth 9)) %ₘ toPoly p.poly

/-- R8: the model starts exactly with a GF_POLY of degree 8 that is no product of two polynomials of lower degree
(numbers from 2 on are the polynomials of degree 1 and more) and a GF_GEN of order 255 in it. -/
def Obligations.ModelStartsExactlyWithLegalParameters : Prop :=
  ∀ p : FieldParams,
    (∃ s, State.boot p = .ok s) ↔
      p.poly.getLsbD 8 = true ∧
      (∀ a b : Byte, 2 ≤ a.toNat → 2 ≤ b.toNat → clmul a b ≠ p.poly.setWidth 16) ∧
      p.pow p.gen 255 = 1 ∧ ∀ i, 0 < i → i < 255 → p.pow p.gen i ≠ 1

/-- R31: EXP holds the powers of the generator, and 1 at 255. -/
def Obligations.ExpHoldsThePowersOfTheGenerator : Prop :=
  ∀ p : FieldParams, (∀ i : Byte, i.toNat ≤ 254 → p.rom.expAt i = p.pow p.gen i.toNat) ∧ p.rom.expAt 255 = 1

/-- R32: LOG inverts EXP, is 0 at 0 and at 1, has entries in 0..254 only, and EXP[0..254] lists each nonzero byte
exactly once. -/
def Obligations.LogInvertsExp : Prop :=
  ∀ p : FieldParams, p.legal = true →
    (∀ i : Byte, i.toNat ≤ 254 → p.rom.logAt (p.rom.expAt i) = i) ∧ p.rom.logAt 0 = 0 ∧ p.rom.logAt 1 = 0 ∧
    (∀ v : Byte, (p.rom.logAt v).toNat ≤ 254) ∧
    ∀ v : Byte, v ≠ 0 → ∃! i : Byte, i.toNat ≤ 254 ∧ p.rom.expAt i = v

/-- R34: the procedure of the rule, run over tables with any contents, gives the tables of R31 and R32, and its
loop ends with v = 1 (R8). -/
def Obligations.TableProcedureBuildsTheTables : Prop :=
  ∀ p : FieldParams, p.legal = true → (∀ blank : Rom, p.buildTables blank = p.rom) ∧ p.pow p.gen 255 = 1

/-- R104, R110: for legal tables the folded sum of two logs is the sum mod 255, the wrapped difference is the
difference mod 255, both in 0..254. -/
def Obligations.ExpIsIndexedBelow255 : Prop :=
  ∀ p : FieldParams, p.legal = true → ∀ a b : Byte,
    (foldSum (p.rom.logAt a) (p.rom.logAt b)).toNat = ((p.rom.logAt a).toNat + (p.rom.logAt b).toNat) % 255 ∧
    ((wrapDiff (p.rom.logAt a) (p.rom.logAt b)).toNat : Int)
      = (((p.rom.logAt a).toNat : Int) - (p.rom.logAt b).toNat) % 255 ∧
    (foldSum (p.rom.logAt a) (p.rom.logAt b)).toNat ≤ 254 ∧ (wrapDiff (p.rom.logAt a) (p.rom.logAt b)).toNat ≤ 254

/-- R104: no command reads EXP[255], whose value (R31) therefore shows in no result. -/
def Obligations.Exp255ShowsInNoResult : Prop :=
  ∀ (p : FieldParams) (s : State) (v : Byte), p.legal = true → s.rom = p.rom →
    step (s.withRom (p.rom.withExp255 v)) = mapNext (·.withRom (p.rom.withExp255 v)) (step s)

/-- R32, R103, R106: the value of LOG[0] shows in no result, because a zero operand is masked; it holds for every
ROM. -/
def Obligations.Log0ShowsInNoResult : Prop :=
  ∀ (s : State) (v : Byte),
    step (s.withRom (s.rom.withLog0 v)) = mapNext (·.withRom (s.rom.withLog0 v)) (step s)

/-- R103, R106: the masked datapath computes what the source says of Multiply and Divide, zero operands included. -/
def Obligations.MaskedDatapathMeetsTheSourceFormulas : Prop :=
  ∀ p : FieldParams, p.legal = true → ∀ a b : Byte,
    gfMul p.rom a b = (if a = 0 ∨ b = 0 then 0
      else p.rom.expAt (BitVec.ofNat 8 (((p.rom.logAt a).toNat + (p.rom.logAt b).toNat) % 255))) ∧
    (b ≠ 0 → gfDiv p.rom a b = if a = 0 then 0
      else p.rom.expAt (BitVec.ofInt 8 ((((p.rom.logAt a).toNat : Int) - (p.rom.logAt b).toNat) % 255)))

/-- R108: for every legal GF_POLY and GF_GEN gf_mul is the field product, gf_div the product with the inverse, and
the laws of the rule hold. -/
def Obligations.TablesMultiplyAndDivideInTheField : Prop :=
  ∀ p : FieldParams, p.legal = true →
    (∀ a b, gfMul p.rom a b = p.mul a b) ∧
    (∀ b : Byte, b ≠ 0 → ∃ binv : Byte, p.mul b binv = 1 ∧ ∀ a, gfDiv p.rom a b = p.mul a binv) ∧
    (∀ a b c, gfMul p.rom a (gfMul p.rom b c) = gfMul p.rom (gfMul p.rom a b) c) ∧
    (∀ a b, gfMul p.rom a b = gfMul p.rom b a) ∧
    (∀ a, gfMul p.rom a 0 = 0 ∧ gfMul p.rom a 1 = a) ∧
    (∀ a b : Byte, b ≠ 0 → gfMul p.rom (gfDiv p.rom a b) b = a) ∧
    (∀ a b c, gfMul p.rom a (gfAdd b c) = gfAdd (gfMul p.rom a b) (gfMul p.rom a c))

/-- R9: two generators of the same field give the same step, but for the tables themselves. -/
def Obligations.GeneratorShowsInNoResult : Prop :=
  ∀ (p q : FieldParams) (s : State), p.legal = true → q.legal = true → p.poly = q.poly → s.rom = p.rom →
    step (s.withRom q.rom) = mapNext (·.withRom q.rom) (step s)

/-- R101: the laws of gf_add. -/
def Obligations.AdditionLaws : Prop :=
  ∀ a b : Byte, gfAdd a b = gfAdd b a ∧ gfAdd a (gfAdd a b) = b ∧ gfAdd a 0 = a ∧ gfAdd a a = 0

/-! ### Field engine commands (spec 40) -/

/-- R100: GADD completes in every state with the XOR of its sources, read before rd is written, and its frame. -/
def Obligations.GaddWritesTheXorAndCompletes : Prop :=
  ∀ (s : State) (rd rs1 rs2 : RegIdx),
    ∃ t, exec (.gadd rd rs1 rs2) s = .next t ∧ RegWritten s t rd (s.reg rs1 ^^^ s.reg rs2)

/-- R102: GMUL completes in every state with gf_mul of its sources, the field product for the tables of legal
parameters and 0 where a source is 0 whatever the tables hold, and its frame; its latency is 1 whatever the
operands are. -/
def Obligations.GmulWritesTheProductAndCompletes : Prop :=
  ∀ (s : State) (rd rs1 rs2 : RegIdx),
    ∃ t v, exec (.gmul rd rs1 rs2) s = .next t ∧ RegWritten s t rd v ∧ v = gfMul s.rom (s.reg rs1) (s.reg rs2) ∧
      (s.reg rs1 = 0 ∨ s.reg rs2 = 0 → v = 0) ∧
      (s.fault = false → latency (.gmul rd rs1 rs2) s = some 1) ∧
      ∀ p : FieldParams, p.legal = true → s.rom = p.rom → v = p.mul (s.reg rs1) (s.reg rs2)

/-- R105: GDIV takes DIV_ZERO when the divisor is 0, whatever the dividend, and otherwise completes with the
quotient, the one byte whose product with the divisor is the dividend for the tables of legal parameters. -/
def Obligations.GdivDividesOrTakesDivZero : Prop :=
  ∀ (s : State) (rd rs1 rs2 : RegIdx),
    (s.reg rs2 = 0 → ∃ t, exec (.gdiv rd rs1 rs2) s = .next t ∧
      FaultTaken s t 0x2 (encode (.gdiv rd rs1 rs2)) ∧ t.io = s.io) ∧
    (s.reg rs2 ≠ 0 → ∃ t v, exec (.gdiv rd rs1 rs2) s = .next t ∧ RegWritten s t rd v ∧
      v = gfDiv s.rom (s.reg rs1) (s.reg rs2) ∧ (s.reg rs1 = 0 → v = 0) ∧
      ∀ p : FieldParams, p.legal = true → s.rom = p.rom → ∀ q, p.mul q (s.reg rs2) = s.reg rs1 ↔ q = v)

/-! ### Control commands (spec 41) -/

/-- R120: the word 0x0000_0000, and no other word of opcode 0, is a command, NOP, which changes CC and nothing
else. -/
def Obligations.NopOnlyCounts : Prop :=
  (∀ s es, s.Receives 0x00000000 es →
    step s = .next { s with cc := s.cc + 1, io := { s.io with events := es } }) ∧
  (∀ s, ∃ t, exec .nop s = .next t ∧ t = { s with cc := s.cc + 1 }) ∧
  ∀ (w : CmdWord) (i : Instr), w >>> 28 = 0 → w ≠ 0 → decode w ≠ .ok i

/-- R122: LDI completes in every state with its immediate, and its frame. -/
def Obligations.LdiLoadsTheImmediateAndCompletes : Prop :=
  ∀ (s : State) (rd : RegIdx) (imm : Byte), ∃ t, exec (.ldi rd imm) s = .next t ∧ RegWritten s t rd imm

/-- R124, R126: CFG takes CONFIG when k < 2 or k > n; otherwise it writes K and N together, sets CFGV, clears XV
and leaves the rest alone, whether or not the block was configured. -/
def Obligations.CfgConfiguresOrTakesConfig : Prop :=
  ∀ (s : State) (k n : Byte),
    (k.toNat < 2 ∨ n.toNat < k.toNat → ∃ t, exec (.cfg k n) s = .next t ∧
      FaultTaken s t 0x3 (encode (.cfg k n)) ∧ t.io = s.io) ∧
    (2 ≤ k.toNat → k.toNat ≤ n.toNat → ∃ t, exec (.cfg k n) s = .next t ∧ t.k = k ∧ t.n = n ∧ t.cfgv = true ∧
      t.xv = false ∧ t.cc = s.cc + 1 ∧ (∀ r, t.reg r = s.reg r) ∧ t.coef = s.coef ∧ t.coord = s.coord ∧
      t.fault = s.fault ∧ t.cause = s.cause ∧ t.fcmd = s.fcmd ∧ t.outq = s.outq ∧ t.rom = s.rom ∧ t.io = s.io)

/-- R129: OUT appends its register to OUTQ and changes nothing else but CC, once the host takes the byte. That the
host's taking is one flag, and that OUT stops with awaitingHost while it is false, is the model's choice (log 7):
R236 also allows a model without this wait. -/
def Obligations.OutAppendsItsRegister : Prop :=
  ∀ (s : State) (rs1 : RegIdx),
    (s.io.hostTakes = true → ∃ t, exec (.out rs1) s = .next t ∧ t.outq = s.outq ++ [s.reg rs1] ∧
      t.cc = s.cc + 1 ∧ (∀ r, t.reg r = s.reg r) ∧ t.coef = s.coef ∧ t.coord = s.coord ∧ t.k = s.k ∧ t.n = s.n ∧
      t.cfgv = s.cfgv ∧ t.xv = s.xv ∧ t.fault = s.fault ∧ t.cause = s.cause ∧ t.fcmd = s.fcmd ∧ t.rom = s.rom ∧
      t.io = s.io) ∧
    (s.io.hostTakes = false → exec (.out rs1) s = .fault .awaitingHost)

/-! ### Coordinates (spec 42) -/

/-- R140, R141, R142, R144: PERM takes CONFIG before any request while CFGV = 0. With an answer that is a
permutation of 0..N-1 it completes: X[0..N-1] is the answer, the rest of X is as before, XV is set. With a `Fail`, or
an answer with an element not below N or with two equal elements, it takes ENTROPY, X and XV as before. Either way
one answer is used. Two clauses are the model's inference: ENTROPY for an answer of another length than N, which R41
rules out (log 6), and the named stop awaitingPermutation while there is no answer (log 4, from R237). -/
def Obligations.PermLoadsThePermutationOrFaults : Prop :=
  ∀ (s : State) (rest : List Answer),
    (s.cfgv = false → ∃ t, exec .perm s = .next t ∧ FaultTaken s t 0x3 0x90000000 ∧ t.io = s.io) ∧
    (∀ p, s.cfgv = true → s.io.permutations = .ok p :: rest →
      p.length = s.n.toNat → (∀ b ∈ p, b.toNat < s.n.toNat) → p.Nodup →
      ∃ t, exec .perm s = .next t ∧ CoordsLoaded s t ∧ t.io = { s.io with permutations := rest } ∧
        (∀ j (h : j < p.length), t.coordAt j = p[j]) ∧ ∀ j, s.n.toNat ≤ j → t.coordAt j = s.coordAt j) ∧
    (∀ p, s.cfgv = true → s.io.permutations = .ok p :: rest →
      (p.length ≠ s.n.toNat ∨ (∃ b ∈ p, s.n.toNat ≤ b.toNat) ∨ ¬ p.Nodup) →
      ∃ t, exec .perm s = .next t ∧ FaultTaken s t 0x6 0x90000000 ∧ t.io = { s.io with permutations := rest }) ∧
    (s.cfgv = true → s.io.permutations = .fail :: rest → ∃ t, exec .perm s = .next t ∧
      FaultTaken s t 0x6 0x90000000 ∧ t.io = { s.io with permutations := rest }) ∧
    (s.cfgv = true → s.io.permutations = [] → exec .perm s = .fault .awaitingPermutation)

/-- R145: RDX takes CONFIG, SEQUENCE or INDEX, in this order, or completes with X[idx], and its frame. -/
def Obligations.RdxReadsTheCoordinateOrFaults : Prop :=
  ∀ (s : State) (rd : RegIdx) (idx : Byte),
    let faults (code : BitVec 4) := ∃ t, exec (.rdx rd idx) s = .next t ∧
      FaultTaken s t code (encode (.rdx rd idx)) ∧ t.io = s.io
    (s.cfgv = false → faults 0x3) ∧
    (s.cfgv = true → s.xv = false → faults 0x4) ∧
    (s.cfgv = true → s.xv = true → s.n.toNat ≤ idx.toNat → faults 0x5) ∧
    (s.cfgv = true → s.xv = true → idx.toNat < s.n.toNat →
      ∃ t, exec (.rdx rd idx) s = .next t ∧ RegWritten s t rd (s.coordAt idx.toNat))

/-- R38, R143: while XV = 1 the coordinates X[0..N-1] are 0..N-1, each the coordinate of exactly one participant;
and the share that EVALP gives the participant with coordinate 0 is the constant term. -/
def Obligations.CoordinatesAreAPermutationAndZeroGetsTheIntercept : Prop :=
  ∀ (p : FieldParams) (s : State), Inv p s → s.xv = true →
    (∀ i, i < s.n.toNat → (s.coordAt i).toNat < s.n.toNat) ∧
    (∀ v : Byte, v.toNat < s.n.toNat → ∃! i, i < s.n.toNat ∧ s.coordAt i = v) ∧
    ∀ (rd : RegIdx) (i : Byte), i.toNat < s.n.toNat → s.coordAt i.toNat = 0 →
      ∃ t, exec (.evalp rd i) s = .next t ∧ RegWritten s t rd (s.coefAt 0)

/-! ### Polynomial (spec 43) -/

/-- R160, R162: WRC takes INDEX at 255 and at no other index, and otherwise writes that entry of C and no other,
configured or not. -/
def Obligations.WrcWritesTheCoefficientOrTakesIndex : Prop :=
  ∀ (s : State) (rs1 : RegIdx) (idx : Byte),
    (idx.toNat = 255 → ∃ t, exec (.wrc rs1 idx) s = .next t ∧
      FaultTaken s t 0x5 (encode (.wrc rs1 idx)) ∧ t.io = s.io) ∧
    (idx.toNat ≤ 254 → ∃ t, exec (.wrc rs1 idx) s = .next t ∧ OnlyCoefWritten s t ∧ t.io = s.io ∧
      t.coefAt idx.toNat = s.reg rs1 ∧ ∀ j, j ≠ idx.toNat → t.coefAt j = s.coefAt j)

/-- R163, R162: RDC takes INDEX at 255 and at no other index, and otherwise completes with that entry of C. -/
def Obligations.RdcReadsTheCoefficientOrTakesIndex : Prop :=
  ∀ (s : State) (rd : RegIdx) (idx : Byte),
    (idx.toNat = 255 → ∃ t, exec (.rdc rd idx) s = .next t ∧
      FaultTaken s t 0x5 (encode (.rdc rd idx)) ∧ t.io = s.io) ∧
    (idx.toNat ≤ 254 → ∃ t, exec (.rdc rd idx) s = .next t ∧ RegWritten s t rd (s.coefAt idx.toNat))

/-- R166, R167: RNDC takes CONFIG before any request while CFGV = 0. With K-1 bytes from the provider it writes them
to C[1], ..., C[K-1] in order, and nothing else of C; when the provider fails it takes ENTROPY, C as before. Either
way one answer is used. The named stop awaitingEntropy while there is no answer is the model's inference (log 4, from
R237). An answer of another length is left to `CommandsEndInANextStateOrANamedStop`. -/
def Obligations.RndcFillsTheCoefficientsOrFaults : Prop :=
  ∀ (s : State) (rest : List Answer),
    (s.cfgv = false → ∃ t, exec .rndc s = .next t ∧ FaultTaken s t 0x3 0x80000000 ∧ t.io = s.io) ∧
    (∀ bs, s.cfgv = true → s.io.entropy = .ok bs :: rest → bs.length = s.k.toNat - 1 →
      ∃ t, exec .rndc s = .next t ∧ OnlyCoefWritten s t ∧ t.io = { s.io with entropy := rest } ∧
        (∀ j (h : j < bs.length), t.coefAt (1 + j) = bs[j]) ∧ t.coefAt 0 = s.coefAt 0 ∧
        ∀ j, 1 + bs.length ≤ j → t.coefAt j = s.coefAt j) ∧
    (s.cfgv = true → s.io.entropy = .fail :: rest → ∃ t, exec .rndc s = .next t ∧
      FaultTaken s t 0x6 0x80000000 ∧ t.io = { s.io with entropy := rest }) ∧
    (s.cfgv = true → s.io.entropy = [] → exec .rndc s = .fault .awaitingEntropy)

/-- R173: horner(x) is the sum over j in 0..K-1 of C[j]·x^j in the field, and at 0 both the short-circuit and the
fold give C[0]. -/
def Obligations.HornerIsThePolynomialValue : Prop :=
  ∀ (p : FieldParams) (s : State), p.legal = true → s.rom = p.rom → 2 ≤ s.k.toNat →
    (∀ x, s.horner x = p.polyValue s.coef x s.k.toNat) ∧ s.horner 0 = s.coefAt 0 ∧
    hornerFold s.rom s.coef 0 (s.k.toNat - 1) (s.coefAt (s.k.toNat - 1)) = s.coefAt 0

/-- R172: EVAL reads no coefficient at K or above. -/
def Obligations.HornerIgnoresCoefficientsFromKOn : Prop :=
  ∀ (s : State) (other : Vector Byte 255) (x : Byte), 2 ≤ s.k.toNat →
    (∀ j, j < s.k.toNat → fileAt other j = s.coefAt j) → State.horner { s with coef := other } x = s.horner x

/-- R170: EVAL takes CONFIG while CFGV = 0, and otherwise completes with the value of the polynomial at R[rs1],
which for the tables of legal parameters is the field sum of R173; XV does not matter. -/
def Obligations.EvalWritesThePolynomialValueOrTakesConfig : Prop :=
  ∀ (s : State) (rd rs1 : RegIdx),
    (s.cfgv = false → ∃ t, exec (.eval rd rs1) s = .next t ∧
      FaultTaken s t 0x3 (encode (.eval rd rs1)) ∧ t.io = s.io) ∧
    (s.cfgv = true → ∃ t v, exec (.eval rd rs1) s = .next t ∧ RegWritten s t rd v ∧ v = s.horner (s.reg rs1) ∧
      ∀ p : FieldParams, p.legal = true → s.rom = p.rom → 2 ≤ s.k.toNat →
        v = p.polyValue s.coef (s.reg rs1) s.k.toNat)

/-- R175: EVALP takes CONFIG, SEQUENCE or INDEX, in this order, or completes with the value of the polynomial at
X[idx]. -/
def Obligations.EvalpWritesTheShareOrFaults : Prop :=
  ∀ (s : State) (rd : RegIdx) (idx : Byte),
    let faults (code : BitVec 4) := ∃ t, exec (.evalp rd idx) s = .next t ∧
      FaultTaken s t code (encode (.evalp rd idx)) ∧ t.io = s.io
    (s.cfgv = false → faults 0x3) ∧
    (s.cfgv = true → s.xv = false → faults 0x4) ∧
    (s.cfgv = true → s.xv = true → s.n.toNat ≤ idx.toNat → faults 0x5) ∧
    (s.cfgv = true → s.xv = true → idx.toNat < s.n.toNat →
      ∃ t v, exec (.evalp rd idx) s = .next t ∧ RegWritten s t rd v ∧ v = s.horner (s.coordAt idx.toNat) ∧
        ∀ p : FieldParams, p.legal = true → s.rom = p.rom → 2 ≤ s.k.toNat →
          v = p.polyValue s.coef (s.coordAt idx.toNat) s.k.toNat)

/-- R176: two participants' shares may be evaluated in either order. -/
def Obligations.SharesMayBeEvaluatedInAnyOrder : Prop :=
  ∀ (s : State) (rd1 rd2 : RegIdx) (i j : Byte), rd1 ≠ rd2 → s.cfgv = true → s.xv = true →
    i.toNat < s.n.toNat → j.toNat < s.n.toNat →
    ∃ a b t, exec (.evalp rd1 i) s = .next a ∧ exec (.evalp rd2 j) a = .next t ∧
      exec (.evalp rd2 j) s = .next b ∧ exec (.evalp rd1 i) b = .next t

/-! ### The whole machine -/

/-- R204, R202, R203: whatever word makes the block fault, the fault record is the only thing it writes; of the
ports, at most one provider answer is used. -/
def Obligations.FaultsArePrecise : Prop :=
  ∀ (s t : State) (w : CmdWord) (es : List HostEvent), s.Receives w es → step s = .next t → t.fault = true →
    (∃ code : BitVec 4, 1 ≤ code.toNat ∧ code.toNat ≤ 6 ∧ FaultTaken s t code w) ∧
    t.io.events = es ∧ t.io.resetLine = s.io.resetLine ∧ t.io.hostTakes = s.io.hostTakes ∧
    (t.io.entropy = s.io.entropy ∨ ∃ a, s.io.entropy = a :: t.io.entropy) ∧
    (t.io.permutations = s.io.permutations ∨ ∃ a, s.io.permutations = a :: t.io.permutations)

/-- R201: a command reports one fault, that of the first check that fails in the order of the rule; one that faults
at a check before the provider's uses no answer of a provider. -/
def Obligations.FirstFailingCheckIsReported : Prop :=
  ∀ (s t : State) (w : CmdWord) (es : List HostEvent), s.Receives w es → step s = .next t → t.fault = true →
    (t.cause = match decode w with
      | .error _ => 0x1
      | .ok i =>
        let configFails := match i with
          | .cfg k n => decide (k.toNat < 2) || decide (n.toNat < k.toNat)
          | .rndc | .perm | .rdx _ _ | .eval _ _ | .evalp _ _ => !s.cfgv
          | _ => false
        let sequenceFails := match i with
          | .rdx _ _ | .evalp _ _ => !s.xv
          | _ => false
        let indexFails := match i with
          | .rdx _ idx | .evalp _ idx => decide (s.n.toNat ≤ idx.toNat)
          | .wrc _ idx | .rdc _ idx => decide (idx.toNat = 255)
          | _ => false
        let divisorFails := match i with
          | .gdiv _ _ rs2 => decide (s.reg rs2 = 0)
          | _ => false
        if configFails then 0x3 else if sequenceFails then 0x4 else if indexFails then 0x5
        else if divisorFails then 0x2 else 0x6) ∧
    (t.cause ≠ 0x6 → t.io.entropy = s.io.entropy ∧ t.io.permutations = s.io.permutations)

/-- R56, R125: a configured RNDC uses exactly one answer of the entropy port, a `Fail` or K-1 bytes, and a configured
PERM one of the permutation port; no other step uses an answer. That a RESET that falls on such a command uses none
is the model's choice (log 18), and so is that RNDC has no next state for an `Ok` of another length (log 5). -/
def Obligations.ProviderRequestsAreOnePerRndcAndPerm : Prop :=
  ∀ s t : State, step s = .next t →
    (t.io.entropy = s.io.entropy ∧ ¬ ((∃ es, s.Receives 0x80000000 es) ∧ s.cfgv = true) ∨
      (∃ es, s.Receives 0x80000000 es) ∧ s.cfgv = true ∧ ∃ a, s.io.entropy = a :: t.io.entropy ∧
        (a = .fail ∨ ∃ bs, a = .ok bs ∧ bs.length = s.k.toNat - 1)) ∧
    (t.io.permutations = s.io.permutations ∧ ¬ ((∃ es, s.Receives 0x90000000 es) ∧ s.cfgv = true) ∨
      (∃ es, s.Receives 0x90000000 es) ∧ s.cfgv = true ∧ ∃ a, s.io.permutations = a :: t.io.permutations)

/-- R39: OUTQ grows by one byte at an OUT, is emptied by RESET, and changes in no other step. -/
def Obligations.OnlyOutAppendsToTheOutputStream : Prop :=
  ∀ s t : State, step s = .next t →
    t.outq = s.outq ∨
    (∃ w es rs1, s.Receives w es ∧ decode w = .ok (.out rs1) ∧ t.outq = s.outq ++ [s.reg rs1]) ∨
    (∃ e es, s.io.events = e :: es ∧ (e.assertsReset = true ∨ e = .resetRelease ∧ s.io.resetLine = true) ∧
      t.outq = [])

/-- R25, R202, R207: over any stream of words, CC counts the words that completed; after a fault it is the
position of the first word that faulted, counted from the start of the stream, and FCMD is that word. -/
def Obligations.CounterIsThePositionInTheStream : Prop :=
  ∀ (ws : List CmdWord) (s t : State), s.fault = false → s.io.resetLine = false →
    s.io.events = ws.map .command → Host.Core.run core ws.length s = .next t →
    (t.fault = false ∧ t.cc = s.cc + BitVec.ofNat 32 ws.length) ∨
    (t.fault = true ∧ ∃ j, ws[j]? = some t.fcmd ∧ t.cc = s.cc + BitVec.ofNat 32 j)

/-- R27, R28: but for RESET, K, N and CFGV change only in a CFG, which writes K and N from its word, XV changes
only in a CFG or a PERM, C only in a WRC or an RNDC, X only in a PERM, and the ROM never, RESET included (R33). -/
def Obligations.WhoWritesConfigurationAndFiles : Prop :=
  ∀ s t : State, step s = .next t →
    t.rom = s.rom ∧
    ∀ w es, s.io.events = .command w :: es →
      ((t.k = s.k ∧ t.n = s.n ∧ t.cfgv = s.cfgv) ∨
        ∃ k n, decode w = .ok (.cfg k n) ∧ t.k = k ∧ t.n = n ∧ t.cfgv = true ∧ t.xv = false) ∧
      (t.xv = s.xv ∨ (t.xv = false ∧ ∃ k n, decode w = .ok (.cfg k n)) ∨ (t.xv = true ∧ decode w = .ok .perm)) ∧
      (t.coef = s.coef ∨ decode w = .ok .rndc ∨ ∃ rs1 idx, decode w = .ok (.wrc rs1 idx)) ∧
      (t.coord = s.coord ∨ decode w = .ok .perm)

/-- R236, R237, R40: a command ends in a next state or in one of four named stops; nothing is refused. Three are the
waits for a provider's answer and for the host to take a byte, which the rules describe and the model writes as named
stops (logs 4 and 7). The fourth, for an entropy answer of a length that R40 rules out, is the model's choice
(log 5). -/
def Obligations.CommandsEndInANextStateOrANamedStop : Prop :=
  ∀ (i : Instr) (s : State),
    (∃ t, exec i s = .next t) ∨
    (i = .rndc ∧ s.cfgv = true ∧ s.io.entropy = [] ∧ exec i s = .fault .awaitingEntropy) ∨
    (i = .rndc ∧ s.cfgv = true ∧ (∃ bs rest, s.io.entropy = .ok bs :: rest ∧ bs.length ≠ s.k.toNat - 1) ∧
      exec i s = .fault .entropyAnswerLength) ∨
    (i = .perm ∧ s.cfgv = true ∧ s.io.permutations = [] ∧ exec i s = .fault .awaitingPermutation) ∨
    ((∃ rs1, i = .out rs1) ∧ s.io.hostTakes = false ∧ exec i s = .fault .awaitingHost)

/-- R27, R33, R38, R26, R230: the invariant of Safety.lean is kept by every step, from every state that meets it. -/
def Obligations.EveryStepKeepsTheInvariant : Prop :=
  ∀ (p : FieldParams) (s t : State), Inv p s → step s = .next t → Inv p t

/-- R230, R231: the reset state of every block meets the invariant, is the state of R230, and counts from 0. The
ROM of `State.reset` itself is the model's choice (log 1), so the last clause rests on that choice. -/
def Obligations.ResetMeetsTheInvariant : Prop :=
  (∀ p : FieldParams, Inv p (State.resetWith p) ∧ (State.resetWith p).AtReset) ∧
    Inv Config.vectorParams State.reset

/-- R26, R27, R29, R30, R43: the words of the status port bit by bit, and the FAULT line. -/
def Obligations.StatusPortShowsTheRegisters : Prop :=
  ∀ s : State,
    (∀ b, (s.statusRead 0x00).getLsbD b =
      (if b = 0 then s.fault else if b = 1 then s.cfgv else if b = 2 then s.xv
        else if 8 ≤ b ∧ b ≤ 11 then s.cause.getLsbD (b - 8) else false)) ∧
    (∀ b, (s.statusRead 0x01).getLsbD b =
      (if b ≤ 7 then s.k.getLsbD b else if b ≤ 15 then s.n.getLsbD (b - 8) else false)) ∧
    s.statusRead 0x02 = s.cc ∧ s.statusRead 0x03 = s.fcmd ∧
    (∀ a : BitVec 8, 4 ≤ a.toNat → s.statusRead a = 0) ∧ s.faultLine = (s.statusRead 0x00).getLsbD 0

/-- R240, R241: the latency of a command that completes does not depend on R, C, X or a provider's bytes; it
depends on the command, on K and N, and for EVAL and EVALP on whether the coordinate is 0. That handshakes add nothing
to it is the model's choice (log 12). -/
def Obligations.LatencyDoesNotDependOnSecrets : Prop :=
  ∀ (i : Instr) (s t : State), completes i s = true → completes i t = true → s.k = t.k → s.n = t.n →
    (∀ rd rs1, i = .eval rd rs1 → (s.reg rs1 = 0 ↔ t.reg rs1 = 0)) →
    (∀ rd idx, i = .evalp rd idx → (s.coordAt idx.toNat = 0 ↔ t.coordAt idx.toNat = 0)) →
    latency i s = latency i t

/-- R240, R241: the latencies of the table for a command that completes. R240 leaves the latency of a command that
faults unspecified; that it is none here, and that handshakes add nothing, is the model's choice (log 12). -/
def Obligations.LatenciesAreThoseOfTheTable : Prop :=
  (∀ i s, completes i s = true → latency i s = some (match i with
    | .perm => s.n.toNat
    | .eval _ rs1 => if Config.evalZeroShortcut = true ∧ s.reg rs1 = 0 then 1 else s.k.toNat
    | .evalp _ idx => if Config.evalZeroShortcut = true ∧ s.coordAt idx.toNat = 0 then 1 else s.k.toNat
    | _ => 1)) ∧
  ∀ i s t, exec i s = .next t → t.fault = true → latency i s = none
end

