-- ==== Sys2Proof/Laws/Decode.lean ====
section
/-! SUPPORT. The fields of encoded commands, and the opcode map. -/

namespace Sys2Proof

/-- The OP field of an opcode's value names that opcode. -/
theorem Op.ofField_code (op : Op) : Op.ofField op.code = some op := by cases op <;> rfl

/-- The opcode named by a field has that field as its value. -/
theorem Op.code_of_ofField {f : BitVec 4} {op : Op} (h : Op.ofField f = some op) : op.code = f := by
  revert op; revert f; decide

/-- An encoded command has its opcode in the OP field. -/
theorem opField_encode (i : Instr) : opField (encode i) = i.op.code := by
  cases i <;>
  · ext j hj
    simp only [encode, opField, placeField, Instr.op, Op.code]
    interval_cases j <;> simp

/-- What decoding answers, by the opcode that the OP field names. -/
theorem decode_of_ofField {w : CmdWord} {op : Op} (h : Op.ofField (opField w) = some op) :
    decode w = if w &&& op.mask = op.pattern then .ok (op.build w) else .error (.reservedBit op) := by
  simp [decode, h]

/-- A word decodes to a command exactly through the row of its opcode. -/
theorem decode_eq_ok_iff (w : CmdWord) (i : Instr) :
    decode w = .ok i ↔ ∃ op, Op.ofField (opField w) = some op ∧ w &&& op.mask = op.pattern ∧ op.build w = i := by
  unfold decode
  cases h : Op.ofField (opField w) with
  | none => simp
  | some op => by_cases g : w &&& op.mask = op.pattern <;> simp [g]

end Sys2Proof
end

