-- ==== Sys2Proof/Laws/State.lean ====
section
/-! SUPPORT. One lemma for each field of State under each update of it, and for each file read under each update,
so that no proof unfolds a record update. -/

namespace Sys2Proof.Machine

/-! ### setReg -/

@[simp] theorem State.setReg_regs (s : State) (r : RegIdx) (v : Byte) : (s.setReg r v).regs = s.regs.set r.toNat v r.isLt := rfl
@[simp] theorem State.setReg_coef (s : State) (r : RegIdx) (v : Byte) : (s.setReg r v).coef = s.coef := rfl
@[simp] theorem State.setReg_coord (s : State) (r : RegIdx) (v : Byte) : (s.setReg r v).coord = s.coord := rfl
@[simp] theorem State.setReg_k (s : State) (r : RegIdx) (v : Byte) : (s.setReg r v).k = s.k := rfl
@[simp] theorem State.setReg_n (s : State) (r : RegIdx) (v : Byte) : (s.setReg r v).n = s.n := rfl
@[simp] theorem State.setReg_cfgv (s : State) (r : RegIdx) (v : Byte) : (s.setReg r v).cfgv = s.cfgv := rfl
@[simp] theorem State.setReg_xv (s : State) (r : RegIdx) (v : Byte) : (s.setReg r v).xv = s.xv := rfl
@[simp] theorem State.setReg_fault (s : State) (r : RegIdx) (v : Byte) : (s.setReg r v).fault = s.fault := rfl
@[simp] theorem State.setReg_cause (s : State) (r : RegIdx) (v : Byte) : (s.setReg r v).cause = s.cause := rfl
@[simp] theorem State.setReg_fcmd (s : State) (r : RegIdx) (v : Byte) : (s.setReg r v).fcmd = s.fcmd := rfl
@[simp] theorem State.setReg_cc (s : State) (r : RegIdx) (v : Byte) : (s.setReg r v).cc = s.cc := rfl
@[simp] theorem State.setReg_outq (s : State) (r : RegIdx) (v : Byte) : (s.setReg r v).outq = s.outq := rfl
@[simp] theorem State.setReg_rom (s : State) (r : RegIdx) (v : Byte) : (s.setReg r v).rom = s.rom := rfl
@[simp] theorem State.setReg_io (s : State) (r : RegIdx) (v : Byte) : (s.setReg r v).io = s.io := rfl
@[simp] theorem State.setReg_coefAt (s : State) (r : RegIdx) (v : Byte) (i : Nat) : (s.setReg r v).coefAt i = s.coefAt i := rfl
@[simp] theorem State.setReg_coordAt (s : State) (r : RegIdx) (v : Byte) (i : Nat) : (s.setReg r v).coordAt i = s.coordAt i := rfl

/-! ### setCoef -/

@[simp] theorem State.setCoef_regs (s : State) (j : Nat) (v : Byte) : (s.setCoef j v).regs = s.regs := rfl
@[simp] theorem State.setCoef_coef (s : State) (j : Nat) (v : Byte) : (s.setCoef j v).coef = s.coef.setIfInBounds j v := rfl
@[simp] theorem State.setCoef_coord (s : State) (j : Nat) (v : Byte) : (s.setCoef j v).coord = s.coord := rfl
@[simp] theorem State.setCoef_k (s : State) (j : Nat) (v : Byte) : (s.setCoef j v).k = s.k := rfl
@[simp] theorem State.setCoef_n (s : State) (j : Nat) (v : Byte) : (s.setCoef j v).n = s.n := rfl
@[simp] theorem State.setCoef_cfgv (s : State) (j : Nat) (v : Byte) : (s.setCoef j v).cfgv = s.cfgv := rfl
@[simp] theorem State.setCoef_xv (s : State) (j : Nat) (v : Byte) : (s.setCoef j v).xv = s.xv := rfl
@[simp] theorem State.setCoef_fault (s : State) (j : Nat) (v : Byte) : (s.setCoef j v).fault = s.fault := rfl
@[simp] theorem State.setCoef_cause (s : State) (j : Nat) (v : Byte) : (s.setCoef j v).cause = s.cause := rfl
@[simp] theorem State.setCoef_fcmd (s : State) (j : Nat) (v : Byte) : (s.setCoef j v).fcmd = s.fcmd := rfl
@[simp] theorem State.setCoef_cc (s : State) (j : Nat) (v : Byte) : (s.setCoef j v).cc = s.cc := rfl
@[simp] theorem State.setCoef_outq (s : State) (j : Nat) (v : Byte) : (s.setCoef j v).outq = s.outq := rfl
@[simp] theorem State.setCoef_rom (s : State) (j : Nat) (v : Byte) : (s.setCoef j v).rom = s.rom := rfl
@[simp] theorem State.setCoef_io (s : State) (j : Nat) (v : Byte) : (s.setCoef j v).io = s.io := rfl
@[simp] theorem State.setCoef_reg (s : State) (j : Nat) (v : Byte) (i : RegIdx) : (s.setCoef j v).reg i = s.reg i := rfl
@[simp] theorem State.setCoef_coordAt (s : State) (j : Nat) (v : Byte) (i : Nat) : (s.setCoef j v).coordAt i = s.coordAt i := rfl

/-! ### setCoefRun -/

@[simp] theorem State.setCoefRun_regs (s : State) (j : Nat) (bs : List Byte) : (s.setCoefRun j bs).regs = s.regs := rfl
@[simp] theorem State.setCoefRun_coef (s : State) (j : Nat) (bs : List Byte) : (s.setCoefRun j bs).coef = writeRun s.coef j bs := rfl
@[simp] theorem State.setCoefRun_coord (s : State) (j : Nat) (bs : List Byte) : (s.setCoefRun j bs).coord = s.coord := rfl
@[simp] theorem State.setCoefRun_k (s : State) (j : Nat) (bs : List Byte) : (s.setCoefRun j bs).k = s.k := rfl
@[simp] theorem State.setCoefRun_n (s : State) (j : Nat) (bs : List Byte) : (s.setCoefRun j bs).n = s.n := rfl
@[simp] theorem State.setCoefRun_cfgv (s : State) (j : Nat) (bs : List Byte) : (s.setCoefRun j bs).cfgv = s.cfgv := rfl
@[simp] theorem State.setCoefRun_xv (s : State) (j : Nat) (bs : List Byte) : (s.setCoefRun j bs).xv = s.xv := rfl
@[simp] theorem State.setCoefRun_fault (s : State) (j : Nat) (bs : List Byte) : (s.setCoefRun j bs).fault = s.fault := rfl
@[simp] theorem State.setCoefRun_cause (s : State) (j : Nat) (bs : List Byte) : (s.setCoefRun j bs).cause = s.cause := rfl
@[simp] theorem State.setCoefRun_fcmd (s : State) (j : Nat) (bs : List Byte) : (s.setCoefRun j bs).fcmd = s.fcmd := rfl
@[simp] theorem State.setCoefRun_cc (s : State) (j : Nat) (bs : List Byte) : (s.setCoefRun j bs).cc = s.cc := rfl
@[simp] theorem State.setCoefRun_outq (s : State) (j : Nat) (bs : List Byte) : (s.setCoefRun j bs).outq = s.outq := rfl
@[simp] theorem State.setCoefRun_rom (s : State) (j : Nat) (bs : List Byte) : (s.setCoefRun j bs).rom = s.rom := rfl
@[simp] theorem State.setCoefRun_io (s : State) (j : Nat) (bs : List Byte) : (s.setCoefRun j bs).io = s.io := rfl
@[simp] theorem State.setCoefRun_reg (s : State) (j : Nat) (bs : List Byte) (i : RegIdx) : (s.setCoefRun j bs).reg i = s.reg i := rfl
@[simp] theorem State.setCoefRun_coordAt (s : State) (j : Nat) (bs : List Byte) (i : Nat) : (s.setCoefRun j bs).coordAt i = s.coordAt i := rfl

/-! ### loadCoords -/

@[simp] theorem State.loadCoords_regs (s : State) (bs : List Byte) : (s.loadCoords bs).regs = s.regs := rfl
@[simp] theorem State.loadCoords_coef (s : State) (bs : List Byte) : (s.loadCoords bs).coef = s.coef := rfl
@[simp] theorem State.loadCoords_coord (s : State) (bs : List Byte) : (s.loadCoords bs).coord = writeRun s.coord 0 bs := rfl
@[simp] theorem State.loadCoords_k (s : State) (bs : List Byte) : (s.loadCoords bs).k = s.k := rfl
@[simp] theorem State.loadCoords_n (s : State) (bs : List Byte) : (s.loadCoords bs).n = s.n := rfl
@[simp] theorem State.loadCoords_cfgv (s : State) (bs : List Byte) : (s.loadCoords bs).cfgv = s.cfgv := rfl
@[simp] theorem State.loadCoords_xv (s : State) (bs : List Byte) : (s.loadCoords bs).xv = true := rfl
@[simp] theorem State.loadCoords_fault (s : State) (bs : List Byte) : (s.loadCoords bs).fault = s.fault := rfl
@[simp] theorem State.loadCoords_cause (s : State) (bs : List Byte) : (s.loadCoords bs).cause = s.cause := rfl
@[simp] theorem State.loadCoords_fcmd (s : State) (bs : List Byte) : (s.loadCoords bs).fcmd = s.fcmd := rfl
@[simp] theorem State.loadCoords_cc (s : State) (bs : List Byte) : (s.loadCoords bs).cc = s.cc := rfl
@[simp] theorem State.loadCoords_outq (s : State) (bs : List Byte) : (s.loadCoords bs).outq = s.outq := rfl
@[simp] theorem State.loadCoords_rom (s : State) (bs : List Byte) : (s.loadCoords bs).rom = s.rom := rfl
@[simp] theorem State.loadCoords_io (s : State) (bs : List Byte) : (s.loadCoords bs).io = s.io := rfl
@[simp] theorem State.loadCoords_reg (s : State) (bs : List Byte) (i : RegIdx) : (s.loadCoords bs).reg i = s.reg i := rfl
@[simp] theorem State.loadCoords_coefAt (s : State) (bs : List Byte) (i : Nat) : (s.loadCoords bs).coefAt i = s.coefAt i := rfl

/-! ### configure -/

@[simp] theorem State.configure_regs (s : State) (k n : Byte) : (s.configure k n).regs = s.regs := rfl
@[simp] theorem State.configure_coef (s : State) (k n : Byte) : (s.configure k n).coef = s.coef := rfl
@[simp] theorem State.configure_coord (s : State) (k n : Byte) : (s.configure k n).coord = s.coord := rfl
@[simp] theorem State.configure_k (s : State) (k n : Byte) : (s.configure k n).k = k := rfl
@[simp] theorem State.configure_n (s : State) (k n : Byte) : (s.configure k n).n = n := rfl
@[simp] theorem State.configure_cfgv (s : State) (k n : Byte) : (s.configure k n).cfgv = true := rfl
@[simp] theorem State.configure_xv (s : State) (k n : Byte) : (s.configure k n).xv = false := rfl
@[simp] theorem State.configure_fault (s : State) (k n : Byte) : (s.configure k n).fault = s.fault := rfl
@[simp] theorem State.configure_cause (s : State) (k n : Byte) : (s.configure k n).cause = s.cause := rfl
@[simp] theorem State.configure_fcmd (s : State) (k n : Byte) : (s.configure k n).fcmd = s.fcmd := rfl
@[simp] theorem State.configure_cc (s : State) (k n : Byte) : (s.configure k n).cc = s.cc := rfl
@[simp] theorem State.configure_outq (s : State) (k n : Byte) : (s.configure k n).outq = s.outq := rfl
@[simp] theorem State.configure_rom (s : State) (k n : Byte) : (s.configure k n).rom = s.rom := rfl
@[simp] theorem State.configure_io (s : State) (k n : Byte) : (s.configure k n).io = s.io := rfl
@[simp] theorem State.configure_reg (s : State) (k n : Byte) (i : RegIdx) : (s.configure k n).reg i = s.reg i := rfl
@[simp] theorem State.configure_coefAt (s : State) (k n : Byte) (i : Nat) : (s.configure k n).coefAt i = s.coefAt i := rfl
@[simp] theorem State.configure_coordAt (s : State) (k n : Byte) (i : Nat) : (s.configure k n).coordAt i = s.coordAt i := rfl

/-! ### tick -/

@[simp] theorem State.tick_regs (s : State) : (s.tick).regs = s.regs := rfl
@[simp] theorem State.tick_coef (s : State) : (s.tick).coef = s.coef := rfl
@[simp] theorem State.tick_coord (s : State) : (s.tick).coord = s.coord := rfl
@[simp] theorem State.tick_k (s : State) : (s.tick).k = s.k := rfl
@[simp] theorem State.tick_n (s : State) : (s.tick).n = s.n := rfl
@[simp] theorem State.tick_cfgv (s : State) : (s.tick).cfgv = s.cfgv := rfl
@[simp] theorem State.tick_xv (s : State) : (s.tick).xv = s.xv := rfl
@[simp] theorem State.tick_fault (s : State) : (s.tick).fault = s.fault := rfl
@[simp] theorem State.tick_cause (s : State) : (s.tick).cause = s.cause := rfl
@[simp] theorem State.tick_fcmd (s : State) : (s.tick).fcmd = s.fcmd := rfl
@[simp] theorem State.tick_cc (s : State) : (s.tick).cc = s.cc + 1 := rfl
@[simp] theorem State.tick_outq (s : State) : (s.tick).outq = s.outq := rfl
@[simp] theorem State.tick_rom (s : State) : (s.tick).rom = s.rom := rfl
@[simp] theorem State.tick_io (s : State) : (s.tick).io = s.io := rfl
@[simp] theorem State.tick_reg (s : State) (i : RegIdx) : (s.tick).reg i = s.reg i := rfl
@[simp] theorem State.tick_coefAt (s : State) (i : Nat) : (s.tick).coefAt i = s.coefAt i := rfl
@[simp] theorem State.tick_coordAt (s : State) (i : Nat) : (s.tick).coordAt i = s.coordAt i := rfl

/-! ### emit -/

@[simp] theorem State.emit_regs (s : State) (v : Byte) : (s.emit v).regs = s.regs := rfl
@[simp] theorem State.emit_coef (s : State) (v : Byte) : (s.emit v).coef = s.coef := rfl
@[simp] theorem State.emit_coord (s : State) (v : Byte) : (s.emit v).coord = s.coord := rfl
@[simp] theorem State.emit_k (s : State) (v : Byte) : (s.emit v).k = s.k := rfl
@[simp] theorem State.emit_n (s : State) (v : Byte) : (s.emit v).n = s.n := rfl
@[simp] theorem State.emit_cfgv (s : State) (v : Byte) : (s.emit v).cfgv = s.cfgv := rfl
@[simp] theorem State.emit_xv (s : State) (v : Byte) : (s.emit v).xv = s.xv := rfl
@[simp] theorem State.emit_fault (s : State) (v : Byte) : (s.emit v).fault = s.fault := rfl
@[simp] theorem State.emit_cause (s : State) (v : Byte) : (s.emit v).cause = s.cause := rfl
@[simp] theorem State.emit_fcmd (s : State) (v : Byte) : (s.emit v).fcmd = s.fcmd := rfl
@[simp] theorem State.emit_cc (s : State) (v : Byte) : (s.emit v).cc = s.cc := rfl
@[simp] theorem State.emit_outq (s : State) (v : Byte) : (s.emit v).outq = s.outq ++ [v] := rfl
@[simp] theorem State.emit_rom (s : State) (v : Byte) : (s.emit v).rom = s.rom := rfl
@[simp] theorem State.emit_io (s : State) (v : Byte) : (s.emit v).io = s.io := rfl
@[simp] theorem State.emit_reg (s : State) (v : Byte) (i : RegIdx) : (s.emit v).reg i = s.reg i := rfl
@[simp] theorem State.emit_coefAt (s : State) (v : Byte) (i : Nat) : (s.emit v).coefAt i = s.coefAt i := rfl
@[simp] theorem State.emit_coordAt (s : State) (v : Byte) (i : Nat) : (s.emit v).coordAt i = s.coordAt i := rfl

/-! ### raise -/

@[simp] theorem State.raise_regs (s : State) (c : FaultCause) (cmd : CmdWord) : (s.raise c cmd).regs = s.regs := rfl
@[simp] theorem State.raise_coef (s : State) (c : FaultCause) (cmd : CmdWord) : (s.raise c cmd).coef = s.coef := rfl
@[simp] theorem State.raise_coord (s : State) (c : FaultCause) (cmd : CmdWord) : (s.raise c cmd).coord = s.coord := rfl
@[simp] theorem State.raise_k (s : State) (c : FaultCause) (cmd : CmdWord) : (s.raise c cmd).k = s.k := rfl
@[simp] theorem State.raise_n (s : State) (c : FaultCause) (cmd : CmdWord) : (s.raise c cmd).n = s.n := rfl
@[simp] theorem State.raise_cfgv (s : State) (c : FaultCause) (cmd : CmdWord) : (s.raise c cmd).cfgv = s.cfgv := rfl
@[simp] theorem State.raise_xv (s : State) (c : FaultCause) (cmd : CmdWord) : (s.raise c cmd).xv = s.xv := rfl
@[simp] theorem State.raise_fault (s : State) (c : FaultCause) (cmd : CmdWord) : (s.raise c cmd).fault = true := rfl
@[simp] theorem State.raise_cause (s : State) (c : FaultCause) (cmd : CmdWord) : (s.raise c cmd).cause = c.code := rfl
@[simp] theorem State.raise_fcmd (s : State) (c : FaultCause) (cmd : CmdWord) : (s.raise c cmd).fcmd = cmd := rfl
@[simp] theorem State.raise_cc (s : State) (c : FaultCause) (cmd : CmdWord) : (s.raise c cmd).cc = s.cc := rfl
@[simp] theorem State.raise_outq (s : State) (c : FaultCause) (cmd : CmdWord) : (s.raise c cmd).outq = s.outq := rfl
@[simp] theorem State.raise_rom (s : State) (c : FaultCause) (cmd : CmdWord) : (s.raise c cmd).rom = s.rom := rfl
@[simp] theorem State.raise_io (s : State) (c : FaultCause) (cmd : CmdWord) : (s.raise c cmd).io = s.io := rfl
@[simp] theorem State.raise_reg (s : State) (c : FaultCause) (cmd : CmdWord) (i : RegIdx) : (s.raise c cmd).reg i = s.reg i := rfl
@[simp] theorem State.raise_coefAt (s : State) (c : FaultCause) (cmd : CmdWord) (i : Nat) : (s.raise c cmd).coefAt i = s.coefAt i := rfl
@[simp] theorem State.raise_coordAt (s : State) (c : FaultCause) (cmd : CmdWord) (i : Nat) : (s.raise c cmd).coordAt i = s.coordAt i := rfl

/-! ### applyReset -/

@[simp] theorem State.applyReset_regs (s : State) : (s.applyReset).regs = Vector.replicate 16 0 := rfl
@[simp] theorem State.applyReset_coef (s : State) : (s.applyReset).coef = Vector.replicate 255 0 := rfl
@[simp] theorem State.applyReset_coord (s : State) : (s.applyReset).coord = Vector.replicate 255 0 := rfl
@[simp] theorem State.applyReset_k (s : State) : (s.applyReset).k = 0 := rfl
@[simp] theorem State.applyReset_n (s : State) : (s.applyReset).n = 0 := rfl
@[simp] theorem State.applyReset_cfgv (s : State) : (s.applyReset).cfgv = false := rfl
@[simp] theorem State.applyReset_xv (s : State) : (s.applyReset).xv = false := rfl
@[simp] theorem State.applyReset_fault (s : State) : (s.applyReset).fault = false := rfl
@[simp] theorem State.applyReset_cause (s : State) : (s.applyReset).cause = 0 := rfl
@[simp] theorem State.applyReset_fcmd (s : State) : (s.applyReset).fcmd = 0 := rfl
@[simp] theorem State.applyReset_cc (s : State) : (s.applyReset).cc = 0 := rfl
@[simp] theorem State.applyReset_outq (s : State) : (s.applyReset).outq = [] := rfl
@[simp] theorem State.applyReset_rom (s : State) : (s.applyReset).rom = s.rom := rfl
@[simp] theorem State.applyReset_io (s : State) : (s.applyReset).io = s.io := rfl

/-! ### dropEvent -/

@[simp] theorem State.dropEvent_regs (s : State) : (s.dropEvent).regs = s.regs := rfl
@[simp] theorem State.dropEvent_coef (s : State) : (s.dropEvent).coef = s.coef := rfl
@[simp] theorem State.dropEvent_coord (s : State) : (s.dropEvent).coord = s.coord := rfl
@[simp] theorem State.dropEvent_k (s : State) : (s.dropEvent).k = s.k := rfl
@[simp] theorem State.dropEvent_n (s : State) : (s.dropEvent).n = s.n := rfl
@[simp] theorem State.dropEvent_cfgv (s : State) : (s.dropEvent).cfgv = s.cfgv := rfl
@[simp] theorem State.dropEvent_xv (s : State) : (s.dropEvent).xv = s.xv := rfl
@[simp] theorem State.dropEvent_fault (s : State) : (s.dropEvent).fault = s.fault := rfl
@[simp] theorem State.dropEvent_cause (s : State) : (s.dropEvent).cause = s.cause := rfl
@[simp] theorem State.dropEvent_fcmd (s : State) : (s.dropEvent).fcmd = s.fcmd := rfl
@[simp] theorem State.dropEvent_cc (s : State) : (s.dropEvent).cc = s.cc := rfl
@[simp] theorem State.dropEvent_outq (s : State) : (s.dropEvent).outq = s.outq := rfl
@[simp] theorem State.dropEvent_rom (s : State) : (s.dropEvent).rom = s.rom := rfl
@[simp] theorem State.dropEvent_io (s : State) : (s.dropEvent).io = { s.io with events := s.io.events.tail } := rfl
@[simp] theorem State.dropEvent_reg (s : State) (i : RegIdx) : (s.dropEvent).reg i = s.reg i := rfl
@[simp] theorem State.dropEvent_coefAt (s : State) (i : Nat) : (s.dropEvent).coefAt i = s.coefAt i := rfl
@[simp] theorem State.dropEvent_coordAt (s : State) (i : Nat) : (s.dropEvent).coordAt i = s.coordAt i := rfl

/-! ### setResetLine -/

@[simp] theorem State.setResetLine_regs (s : State) (l : Bool) : (s.setResetLine l).regs = s.regs := rfl
@[simp] theorem State.setResetLine_coef (s : State) (l : Bool) : (s.setResetLine l).coef = s.coef := rfl
@[simp] theorem State.setResetLine_coord (s : State) (l : Bool) : (s.setResetLine l).coord = s.coord := rfl
@[simp] theorem State.setResetLine_k (s : State) (l : Bool) : (s.setResetLine l).k = s.k := rfl
@[simp] theorem State.setResetLine_n (s : State) (l : Bool) : (s.setResetLine l).n = s.n := rfl
@[simp] theorem State.setResetLine_cfgv (s : State) (l : Bool) : (s.setResetLine l).cfgv = s.cfgv := rfl
@[simp] theorem State.setResetLine_xv (s : State) (l : Bool) : (s.setResetLine l).xv = s.xv := rfl
@[simp] theorem State.setResetLine_fault (s : State) (l : Bool) : (s.setResetLine l).fault = s.fault := rfl
@[simp] theorem State.setResetLine_cause (s : State) (l : Bool) : (s.setResetLine l).cause = s.cause := rfl
@[simp] theorem State.setResetLine_fcmd (s : State) (l : Bool) : (s.setResetLine l).fcmd = s.fcmd := rfl
@[simp] theorem State.setResetLine_cc (s : State) (l : Bool) : (s.setResetLine l).cc = s.cc := rfl
@[simp] theorem State.setResetLine_outq (s : State) (l : Bool) : (s.setResetLine l).outq = s.outq := rfl
@[simp] theorem State.setResetLine_rom (s : State) (l : Bool) : (s.setResetLine l).rom = s.rom := rfl
@[simp] theorem State.setResetLine_io (s : State) (l : Bool) : (s.setResetLine l).io = { s.io with resetLine := l } := rfl
@[simp] theorem State.setResetLine_reg (s : State) (l : Bool) (i : RegIdx) : (s.setResetLine l).reg i = s.reg i := rfl
@[simp] theorem State.setResetLine_coefAt (s : State) (l : Bool) (i : Nat) : (s.setResetLine l).coefAt i = s.coefAt i := rfl
@[simp] theorem State.setResetLine_coordAt (s : State) (l : Bool) (i : Nat) : (s.setResetLine l).coordAt i = s.coordAt i := rfl

/-! ### deliverFirst -/

@[simp] theorem State.deliverFirst_regs (s : State) (w : CmdWord) : (s.deliverFirst w).regs = s.regs := rfl
@[simp] theorem State.deliverFirst_coef (s : State) (w : CmdWord) : (s.deliverFirst w).coef = s.coef := rfl
@[simp] theorem State.deliverFirst_coord (s : State) (w : CmdWord) : (s.deliverFirst w).coord = s.coord := rfl
@[simp] theorem State.deliverFirst_k (s : State) (w : CmdWord) : (s.deliverFirst w).k = s.k := rfl
@[simp] theorem State.deliverFirst_n (s : State) (w : CmdWord) : (s.deliverFirst w).n = s.n := rfl
@[simp] theorem State.deliverFirst_cfgv (s : State) (w : CmdWord) : (s.deliverFirst w).cfgv = s.cfgv := rfl
@[simp] theorem State.deliverFirst_xv (s : State) (w : CmdWord) : (s.deliverFirst w).xv = s.xv := rfl
@[simp] theorem State.deliverFirst_fault (s : State) (w : CmdWord) : (s.deliverFirst w).fault = s.fault := rfl
@[simp] theorem State.deliverFirst_cause (s : State) (w : CmdWord) : (s.deliverFirst w).cause = s.cause := rfl
@[simp] theorem State.deliverFirst_fcmd (s : State) (w : CmdWord) : (s.deliverFirst w).fcmd = s.fcmd := rfl
@[simp] theorem State.deliverFirst_cc (s : State) (w : CmdWord) : (s.deliverFirst w).cc = s.cc := rfl
@[simp] theorem State.deliverFirst_outq (s : State) (w : CmdWord) : (s.deliverFirst w).outq = s.outq := rfl
@[simp] theorem State.deliverFirst_rom (s : State) (w : CmdWord) : (s.deliverFirst w).rom = s.rom := rfl
@[simp] theorem State.deliverFirst_io (s : State) (w : CmdWord) : (s.deliverFirst w).io = { s.io with events := .command w :: s.io.events, resetLine := false } := rfl
@[simp] theorem State.deliverFirst_reg (s : State) (w : CmdWord) (i : RegIdx) : (s.deliverFirst w).reg i = s.reg i := rfl
@[simp] theorem State.deliverFirst_coefAt (s : State) (w : CmdWord) (i : Nat) : (s.deliverFirst w).coefAt i = s.coefAt i := rfl
@[simp] theorem State.deliverFirst_coordAt (s : State) (w : CmdWord) (i : Nat) : (s.deliverFirst w).coordAt i = s.coordAt i := rfl

/-! ### withRom -/

@[simp] theorem State.withRom_regs (s : State) (t : Rom) : (s.withRom t).regs = s.regs := rfl
@[simp] theorem State.withRom_coef (s : State) (t : Rom) : (s.withRom t).coef = s.coef := rfl
@[simp] theorem State.withRom_coord (s : State) (t : Rom) : (s.withRom t).coord = s.coord := rfl
@[simp] theorem State.withRom_k (s : State) (t : Rom) : (s.withRom t).k = s.k := rfl
@[simp] theorem State.withRom_n (s : State) (t : Rom) : (s.withRom t).n = s.n := rfl
@[simp] theorem State.withRom_cfgv (s : State) (t : Rom) : (s.withRom t).cfgv = s.cfgv := rfl
@[simp] theorem State.withRom_xv (s : State) (t : Rom) : (s.withRom t).xv = s.xv := rfl
@[simp] theorem State.withRom_fault (s : State) (t : Rom) : (s.withRom t).fault = s.fault := rfl
@[simp] theorem State.withRom_cause (s : State) (t : Rom) : (s.withRom t).cause = s.cause := rfl
@[simp] theorem State.withRom_fcmd (s : State) (t : Rom) : (s.withRom t).fcmd = s.fcmd := rfl
@[simp] theorem State.withRom_cc (s : State) (t : Rom) : (s.withRom t).cc = s.cc := rfl
@[simp] theorem State.withRom_outq (s : State) (t : Rom) : (s.withRom t).outq = s.outq := rfl
@[simp] theorem State.withRom_rom (s : State) (t : Rom) : (s.withRom t).rom = t := rfl
@[simp] theorem State.withRom_io (s : State) (t : Rom) : (s.withRom t).io = s.io := rfl
@[simp] theorem State.withRom_reg (s : State) (t : Rom) (i : RegIdx) : (s.withRom t).reg i = s.reg i := rfl
@[simp] theorem State.withRom_coefAt (s : State) (t : Rom) (i : Nat) : (s.withRom t).coefAt i = s.coefAt i := rfl
@[simp] theorem State.withRom_coordAt (s : State) (t : Rom) (i : Nat) : (s.withRom t).coordAt i = s.coordAt i := rfl

/-! ### setEntropy -/

@[simp] theorem State.setEntropy_regs (s : State) (l : List Answer) : (s.setEntropy l).regs = s.regs := rfl
@[simp] theorem State.setEntropy_coef (s : State) (l : List Answer) : (s.setEntropy l).coef = s.coef := rfl
@[simp] theorem State.setEntropy_coord (s : State) (l : List Answer) : (s.setEntropy l).coord = s.coord := rfl
@[simp] theorem State.setEntropy_k (s : State) (l : List Answer) : (s.setEntropy l).k = s.k := rfl
@[simp] theorem State.setEntropy_n (s : State) (l : List Answer) : (s.setEntropy l).n = s.n := rfl
@[simp] theorem State.setEntropy_cfgv (s : State) (l : List Answer) : (s.setEntropy l).cfgv = s.cfgv := rfl
@[simp] theorem State.setEntropy_xv (s : State) (l : List Answer) : (s.setEntropy l).xv = s.xv := rfl
@[simp] theorem State.setEntropy_fault (s : State) (l : List Answer) : (s.setEntropy l).fault = s.fault := rfl
@[simp] theorem State.setEntropy_cause (s : State) (l : List Answer) : (s.setEntropy l).cause = s.cause := rfl
@[simp] theorem State.setEntropy_fcmd (s : State) (l : List Answer) : (s.setEntropy l).fcmd = s.fcmd := rfl
@[simp] theorem State.setEntropy_cc (s : State) (l : List Answer) : (s.setEntropy l).cc = s.cc := rfl
@[simp] theorem State.setEntropy_outq (s : State) (l : List Answer) : (s.setEntropy l).outq = s.outq := rfl
@[simp] theorem State.setEntropy_rom (s : State) (l : List Answer) : (s.setEntropy l).rom = s.rom := rfl
@[simp] theorem State.setEntropy_io (s : State) (l : List Answer) : (s.setEntropy l).io = { s.io with entropy := l } := rfl
@[simp] theorem State.setEntropy_reg (s : State) (l : List Answer) (i : RegIdx) : (s.setEntropy l).reg i = s.reg i := rfl
@[simp] theorem State.setEntropy_coefAt (s : State) (l : List Answer) (i : Nat) : (s.setEntropy l).coefAt i = s.coefAt i := rfl
@[simp] theorem State.setEntropy_coordAt (s : State) (l : List Answer) (i : Nat) : (s.setEntropy l).coordAt i = s.coordAt i := rfl

/-! ### setPermutations -/

@[simp] theorem State.setPermutations_regs (s : State) (l : List Answer) : (s.setPermutations l).regs = s.regs := rfl
@[simp] theorem State.setPermutations_coef (s : State) (l : List Answer) : (s.setPermutations l).coef = s.coef := rfl
@[simp] theorem State.setPermutations_coord (s : State) (l : List Answer) : (s.setPermutations l).coord = s.coord := rfl
@[simp] theorem State.setPermutations_k (s : State) (l : List Answer) : (s.setPermutations l).k = s.k := rfl
@[simp] theorem State.setPermutations_n (s : State) (l : List Answer) : (s.setPermutations l).n = s.n := rfl
@[simp] theorem State.setPermutations_cfgv (s : State) (l : List Answer) : (s.setPermutations l).cfgv = s.cfgv := rfl
@[simp] theorem State.setPermutations_xv (s : State) (l : List Answer) : (s.setPermutations l).xv = s.xv := rfl
@[simp] theorem State.setPermutations_fault (s : State) (l : List Answer) : (s.setPermutations l).fault = s.fault := rfl
@[simp] theorem State.setPermutations_cause (s : State) (l : List Answer) : (s.setPermutations l).cause = s.cause := rfl
@[simp] theorem State.setPermutations_fcmd (s : State) (l : List Answer) : (s.setPermutations l).fcmd = s.fcmd := rfl
@[simp] theorem State.setPermutations_cc (s : State) (l : List Answer) : (s.setPermutations l).cc = s.cc := rfl
@[simp] theorem State.setPermutations_outq (s : State) (l : List Answer) : (s.setPermutations l).outq = s.outq := rfl
@[simp] theorem State.setPermutations_rom (s : State) (l : List Answer) : (s.setPermutations l).rom = s.rom := rfl
@[simp] theorem State.setPermutations_io (s : State) (l : List Answer) : (s.setPermutations l).io = { s.io with permutations := l } := rfl
@[simp] theorem State.setPermutations_reg (s : State) (l : List Answer) (i : RegIdx) : (s.setPermutations l).reg i = s.reg i := rfl
@[simp] theorem State.setPermutations_coefAt (s : State) (l : List Answer) (i : Nat) : (s.setPermutations l).coefAt i = s.coefAt i := rfl
@[simp] theorem State.setPermutations_coordAt (s : State) (l : List Answer) (i : Nat) : (s.setPermutations l).coordAt i = s.coordAt i := rfl

end Sys2Proof.Machine
end

