-- ==== Sys2Proof/Laws/Operands.lean ====
section
/-! SUPPORT. What the operand operations do: registers, file entries, and runs of entries. -/

namespace Sys2Proof.Machine

/-- A register read after a register write (spec 10 R21). -/
theorem State.reg_setReg (s : State) (r : RegIdx) (v : Byte) (i : RegIdx) :
    (s.setReg r v).reg i = if i = r then v else s.reg i := by
  by_cases h : i = r
  · subst h; simp [State.reg]
  · have : r.toNat ≠ i.toNat := fun e => h (BitVec.eq_of_toNat_eq e.symm)
    simp [State.reg, h, Vector.getElem_set_ne, this]

@[simp] theorem State.reg_setReg_self (s : State) (r : RegIdx) (v : Byte) : (s.setReg r v).reg r = v := by
  simp [State.reg_setReg]

theorem State.reg_setReg_ne (s : State) {r i : RegIdx} (v : Byte) (h : i ≠ r) : (s.setReg r v).reg i = s.reg i := by
  simp [State.reg_setReg, h]

@[simp] theorem fileAt_replicate (j : Nat) : fileAt (Vector.replicate 255 0#8) j = 0#8 := by
  simp only [fileAt, Vector.getElem?_replicate]; split <;> rfl

/-- A file entry after one entry was written. -/
theorem fileAt_setIfInBounds (file : Vector Byte 255) (j i : Nat) (v : Byte) (h : j < 255) :
    fileAt (file.setIfInBounds j v) i = if i = j then v else fileAt file i := by
  by_cases e : i = j
  · subst e; simp [fileAt, h]
  · rw [if_neg e, fileAt, fileAt, Vector.getElem?_setIfInBounds_ne (Ne.symm e)]

/-- A file entry after a run of entries was written. -/
theorem fileAt_writeRun (file : Vector Byte 255) (start : Nat) (bs : List Byte) (h : start + bs.length ≤ 255) (i : Nat) :
    fileAt (writeRun file start bs) i =
      if start ≤ i ∧ i < start + bs.length then bs.getD (i - start) 0 else fileAt file i := by
  induction bs generalizing file start with
  | nil => simp [writeRun]
  | cons b bs ih =>
    simp only [List.length_cons] at h ⊢
    rw [writeRun, ih _ _ (by omega), fileAt_setIfInBounds _ _ _ _ (by omega)]
    by_cases e : i = start
    · subst e; simp
    · by_cases g : start + 1 ≤ i ∧ i < start + 1 + bs.length
      · have : i - start = (i - (start + 1)) + 1 := by omega
        rw [if_pos g, if_pos (by omega), this, List.getD_cons_succ]
      · rw [if_neg g, if_neg e, if_neg (by omega)]

/-- C after WRC's write. -/
theorem State.coefAt_setCoef (s : State) (j i : Nat) (v : Byte) (h : j < 255) :
    (s.setCoef j v).coefAt i = if i = j then v else s.coefAt i := fileAt_setIfInBounds _ _ _ _ h

/-- C after RNDC's writes. -/
theorem State.coefAt_setCoefRun (s : State) (start : Nat) (bs : List Byte) (h : start + bs.length ≤ 255) (i : Nat) :
    (s.setCoefRun start bs).coefAt i =
      if start ≤ i ∧ i < start + bs.length then bs.getD (i - start) 0 else s.coefAt i := fileAt_writeRun _ _ _ h _

/-- X after PERM's writes. -/
theorem State.coordAt_loadCoords (s : State) (bs : List Byte) (h : bs.length ≤ 255) (i : Nat) :
    (s.loadCoords bs).coordAt i = if i < bs.length then bs.getD i 0 else s.coordAt i := by
  have := fileAt_writeRun s.coord 0 bs (by omega) i
  simpa [State.coordAt] using this

end Sys2Proof.Machine
end

