-- ==== Sys2Proof/Laws/Ops.lean ====
section
/-! SUPPORT. What the shared operations do: one lemma for each, for proofs to cite instead of unfolding it. -/

namespace Sys2Proof.Machine

/-- Writing a register and completing has the frame of a register command. -/
theorem State.regWritten_setReg_tick (s : State) (rd : RegIdx) (v : Byte) : RegWritten s (s.setReg rd v).tick rd v where
  value := by simp
  other_regs r h := by simp [State.reg_setReg_ne s v h]
  counted := rfl
  coef := rfl
  coord := rfl
  k := rfl
  n := rfl
  cfgv := rfl
  xv := rfl
  fault := rfl
  cause := rfl
  fcmd := rfl
  outq := rfl
  rom := rfl
  io := rfl

/-- Fault entry writes the fault record and nothing else (spec 60 R203, R204). -/
theorem State.faultTaken_raise (s : State) (c : FaultCause) (cmd : CmdWord) : FaultTaken s (s.raise c cmd) c.code cmd where
  fault := rfl
  cause := rfl
  fcmd := rfl
  regs _ := rfl
  coef := rfl
  coord := rfl
  k := rfl
  n := rfl
  cfgv := rfl
  xv := rfl
  cc := rfl
  outq := rfl
  rom := rfl

/-- Every cause has a code in 1..6 (R200). -/
theorem FaultCause.code_range (c : FaultCause) : 1 ≤ c.code.toNat ∧ c.code.toNat ≤ 6 := by
  cases c <;> decide

/-- RESET gives the reset state (spec 70 R230). -/
theorem State.atReset_applyReset (s : State) : s.applyReset.AtReset where
  regs r := by simp [State.reg]
  coef j := by simp [State.coefAt]
  coord j := by simp [State.coordAt]
  k := rfl
  n := rfl
  cfgv := rfl
  xv := rfl
  fault := rfl
  cause := rfl
  fcmd := rfl
  cc := rfl
  outq := rfl

/-- The reset level does not matter to being at reset. -/
theorem State.AtReset.setResetLine {s : State} (h : s.AtReset) (l : Bool) : (s.setResetLine l).AtReset :=
  ⟨h.regs, h.coef, h.coord, h.k, h.n, h.cfgv, h.xv, h.fault, h.cause, h.fcmd, h.cc, h.outq⟩

/-! ### The checks of R201 -/

theorem State.requireConfig_of_unset {s : State} (cmd : CmdWord) (go : Result) (h : s.cfgv = false) :
    s.requireConfig cmd go = .next (s.raise .config cmd) := by simp [State.requireConfig, h]

theorem State.requireConfig_of_set {s : State} (cmd : CmdWord) (go : Result) (h : s.cfgv = true) :
    s.requireConfig cmd go = go := by simp [State.requireConfig, h]

theorem State.requireCoords_of_unset {s : State} (cmd : CmdWord) (go : Result) (h : s.xv = false) :
    s.requireCoords cmd go = .next (s.raise .sequence cmd) := by simp [State.requireCoords, h]

theorem State.requireCoords_of_set {s : State} (cmd : CmdWord) (go : Result) (h : s.xv = true) :
    s.requireCoords cmd go = go := by simp [State.requireCoords, h]

theorem State.requireCoordIndex_of_ge {s : State} (cmd : CmdWord) {idx : Byte} (go : Result) (h : s.n.toNat ≤ idx.toNat) :
    s.requireCoordIndex cmd idx go = .next (s.raise .index cmd) := by
  simp [State.requireCoordIndex, BitVec.le_def, h]

theorem State.requireCoordIndex_of_lt {s : State} (cmd : CmdWord) {idx : Byte} (go : Result) (h : idx.toNat < s.n.toNat) :
    s.requireCoordIndex cmd idx go = go := by
  simp [State.requireCoordIndex, BitVec.le_def, Nat.not_le.mpr h]

theorem State.requireCoefIndex_of_255 (s : State) (cmd : CmdWord) (go : Result) :
    s.requireCoefIndex cmd 255 go = .next (s.raise .index cmd) := by simp [State.requireCoefIndex]

theorem State.requireCoefIndex_of_lt {s : State} (cmd : CmdWord) {idx : Byte} (go : Result) (h : idx.toNat ≤ 254) :
    s.requireCoefIndex cmd idx go = go := by
  have : idx ≠ 255 := by rintro rfl; simp at h
  rw [State.requireCoefIndex, if_neg this]

theorem State.requireDivisor_of_zero (s : State) (cmd : CmdWord) (go : Result) :
    s.requireDivisor cmd 0 go = .next (s.raise .divZero cmd) := by simp [State.requireDivisor]

theorem State.requireDivisor_of_ne {s : State} (cmd : CmdWord) {b : Byte} (go : Result) (h : b ≠ 0) :
    s.requireDivisor cmd b go = go := by rw [State.requireDivisor, if_neg h]

/-- `is_perm` (spec 42 R142). -/
theorem isPerm_iff (p : List Byte) (n : Nat) :
    isPerm p n = true ↔ p.length = n ∧ (∀ b ∈ p, b.toNat < n) ∧ p.Nodup := by
  simp [isPerm, and_assoc]

/-! ### Provider requests -/

/-- A request finds no answer and waits, or takes the first one off its port. -/
theorem State.requestEntropy_cases (s : State) :
    (s.io.entropy = [] ∧ s.requestEntropy = .waiting) ∨
    ∃ a rest, s.io.entropy = a :: rest ∧
      s.requestEntropy = .answered a (s.setEntropy rest) := by
  unfold State.requestEntropy
  cases h : s.io.entropy with
  | nil => exact .inl ⟨rfl, rfl⟩
  | cons a rest => exact .inr ⟨a, rest, rfl, rfl⟩

theorem State.requestPermutation_cases (s : State) :
    (s.io.permutations = [] ∧ s.requestPermutation = .waiting) ∨
    ∃ a rest, s.io.permutations = a :: rest ∧
      s.requestPermutation = .answered a (s.setPermutations rest) := by
  unfold State.requestPermutation
  cases h : s.io.permutations with
  | nil => exact .inl ⟨rfl, rfl⟩
  | cons a rest => exact .inr ⟨a, rest, rfl, rfl⟩

end Sys2Proof.Machine
end

