-- ==== Sys2Proof/Laws/Exec.lean ====
section
/-! SUPPORT. Everything a command and a step can do, said once: one lemma for each meaning that has more than one
outcome and one for each case of the step, for proofs to cite instead of unfolding. -/

namespace Sys2Proof.Machine

theorem execGdiv_cases (rd rs1 rs2 : RegIdx) (s : State) :
    (s.reg rs2 = 0 ∧ execGdiv rd rs1 rs2 s = .next (s.raise .divZero (encode (.gdiv rd rs1 rs2)))) ∨
    (s.reg rs2 ≠ 0 ∧
      execGdiv rd rs1 rs2 s = .next (s.setReg rd (gfDiv s.rom (s.reg rs1) (s.reg rs2))).tick) := by
  by_cases h : s.reg rs2 = 0
  · exact .inl ⟨h, by rw [execGdiv, h, State.requireDivisor_of_zero]⟩
  · exact .inr ⟨h, s.requireDivisor_of_ne _ _ h⟩

theorem execCfg_cases (k n : Byte) (s : State) :
    ((k.toNat < 2 ∨ n.toNat < k.toNat) ∧ execCfg k n s = .next (s.raise .config (encode (.cfg k n)))) ∨
    (2 ≤ k.toNat ∧ k.toNat ≤ n.toNat ∧ execCfg k n s = .next (s.configure k n).tick) := by
  by_cases h : k.toNat < 2 ∨ n.toNat < k.toNat
  · exact .inl ⟨h, by simp only [execCfg, BitVec.lt_def]; exact if_pos h⟩
  · exact .inr ⟨by omega, by omega, by simp only [execCfg, BitVec.lt_def]; exact if_neg h⟩

theorem execOut_cases (rs1 : RegIdx) (s : State) :
    (s.io.hostTakes = true ∧ execOut rs1 s = .next (s.emit (s.reg rs1)).tick) ∨
    (s.io.hostTakes = false ∧ execOut rs1 s = .fault .awaitingHost) := by
  cases h : s.io.hostTakes <;> simp [execOut, h]

theorem takePermutation_cases (s : State) (a : Answer) :
    (∃ p, a = .ok p ∧ isPerm p s.n.toNat = true ∧ s.takePermutation a = .next (s.loadCoords p).tick) ∨
    ((∀ p, a = .ok p → isPerm p s.n.toNat = false) ∧
      s.takePermutation a = .next (s.raise .entropy (encode .perm))) := by
  cases a with
  | fail => exact .inr ⟨nofun, rfl⟩
  | ok p => cases h : isPerm p s.n.toNat <;> simp [State.takePermutation, h]

theorem execPerm_cases (s : State) :
    (s.cfgv = false ∧ execPerm s = .next (s.raise .config (encode .perm))) ∨
    (s.cfgv = true ∧ s.io.permutations = [] ∧ execPerm s = .fault .awaitingPermutation) ∨
    (s.cfgv = true ∧ ∃ a rest, s.io.permutations = a :: rest ∧
      execPerm s = (s.setPermutations rest).takePermutation a) := by
  cases h : s.cfgv with
  | false => exact .inl ⟨rfl, s.requireConfig_of_unset _ _ h⟩
  | true =>
    rw [execPerm, s.requireConfig_of_set _ _ h]
    obtain ⟨hp, hr⟩ | ⟨a, rest, hp, hr⟩ := s.requestPermutation_cases <;> simp [hp, hr]

theorem execRdx_cases (rd : RegIdx) (idx : Byte) (s : State) :
    (s.cfgv = false ∧ execRdx rd idx s = .next (s.raise .config (encode (.rdx rd idx)))) ∨
    (s.cfgv = true ∧ s.xv = false ∧ execRdx rd idx s = .next (s.raise .sequence (encode (.rdx rd idx)))) ∨
    (s.cfgv = true ∧ s.xv = true ∧ s.n.toNat ≤ idx.toNat ∧
      execRdx rd idx s = .next (s.raise .index (encode (.rdx rd idx)))) ∨
    (s.cfgv = true ∧ s.xv = true ∧ idx.toNat < s.n.toNat ∧
      execRdx rd idx s = .next (s.setReg rd (s.coordAt idx.toNat)).tick) := by
  rw [execRdx]
  cases hc : s.cfgv with
  | false => simp [s.requireConfig_of_unset _ _ hc]
  | true =>
    rw [s.requireConfig_of_set _ _ hc]
    cases hx : s.xv with
    | false => simp [s.requireCoords_of_unset _ _ hx]
    | true =>
      rw [s.requireCoords_of_set _ _ hx]
      by_cases h : idx.toNat < s.n.toNat
      · simp [s.requireCoordIndex_of_lt _ _ h, h]
      · simp [s.requireCoordIndex_of_ge _ _ (Nat.not_lt.mp h), Nat.not_lt.mp h]

theorem execWrc_cases (rs1 : RegIdx) (idx : Byte) (s : State) :
    (idx.toNat = 255 ∧ execWrc rs1 idx s = .next (s.raise .index (encode (.wrc rs1 idx)))) ∨
    (idx.toNat ≤ 254 ∧ execWrc rs1 idx s = .next (s.setCoef idx.toNat (s.reg rs1)).tick) := by
  rw [execWrc]
  by_cases h : idx.toNat ≤ 254
  · simp [s.requireCoefIndex_of_lt _ _ h, h]
  · obtain rfl : idx = 255 := BitVec.eq_of_toNat_eq (by have := idx.isLt; simp; omega)
    exact .inl ⟨rfl, s.requireCoefIndex_of_255 _ _⟩

theorem execRdc_cases (rd : RegIdx) (idx : Byte) (s : State) :
    (idx.toNat = 255 ∧ execRdc rd idx s = .next (s.raise .index (encode (.rdc rd idx)))) ∨
    (idx.toNat ≤ 254 ∧ execRdc rd idx s = .next (s.setReg rd (s.coefAt idx.toNat)).tick) := by
  rw [execRdc]
  by_cases h : idx.toNat ≤ 254
  · simp [s.requireCoefIndex_of_lt _ _ h, h]
  · obtain rfl : idx = 255 := BitVec.eq_of_toNat_eq (by have := idx.isLt; simp; omega)
    exact .inl ⟨rfl, s.requireCoefIndex_of_255 _ _⟩

theorem takeCoefficients_cases (s : State) (a : Answer) :
    (a = .fail ∧ s.takeCoefficients a = .next (s.raise .entropy (encode .rndc))) ∨
    (∃ bs, a = .ok bs ∧ bs.length = s.k.toNat - 1 ∧ s.takeCoefficients a = .next (s.setCoefRun 1 bs).tick) ∨
    (∃ bs, a = .ok bs ∧ bs.length ≠ s.k.toNat - 1 ∧ s.takeCoefficients a = .fault .entropyAnswerLength) := by
  cases a with
  | fail => exact .inl ⟨rfl, rfl⟩
  | ok bs => by_cases h : bs.length = s.k.toNat - 1 <;> simp [State.takeCoefficients, h]

theorem execRndc_cases (s : State) :
    (s.cfgv = false ∧ execRndc s = .next (s.raise .config (encode .rndc))) ∨
    (s.cfgv = true ∧ s.io.entropy = [] ∧ execRndc s = .fault .awaitingEntropy) ∨
    (s.cfgv = true ∧ ∃ a rest, s.io.entropy = a :: rest ∧
      execRndc s = (s.setEntropy rest).takeCoefficients a) := by
  cases h : s.cfgv with
  | false => exact .inl ⟨rfl, s.requireConfig_of_unset _ _ h⟩
  | true =>
    rw [execRndc, s.requireConfig_of_set _ _ h]
    obtain ⟨hp, hr⟩ | ⟨a, rest, hp, hr⟩ := s.requestEntropy_cases <;> simp [hp, hr]

theorem execEval_cases (rd rs1 : RegIdx) (s : State) :
    (s.cfgv = false ∧ execEval rd rs1 s = .next (s.raise .config (encode (.eval rd rs1)))) ∨
    (s.cfgv = true ∧ execEval rd rs1 s = .next (s.setReg rd (s.horner (s.reg rs1))).tick) := by
  cases h : s.cfgv <;> simp [execEval, State.requireConfig, h]

theorem execEvalp_cases (rd : RegIdx) (idx : Byte) (s : State) :
    (s.cfgv = false ∧ execEvalp rd idx s = .next (s.raise .config (encode (.evalp rd idx)))) ∨
    (s.cfgv = true ∧ s.xv = false ∧ execEvalp rd idx s = .next (s.raise .sequence (encode (.evalp rd idx)))) ∨
    (s.cfgv = true ∧ s.xv = true ∧ s.n.toNat ≤ idx.toNat ∧
      execEvalp rd idx s = .next (s.raise .index (encode (.evalp rd idx)))) ∨
    (s.cfgv = true ∧ s.xv = true ∧ idx.toNat < s.n.toNat ∧
      execEvalp rd idx s = .next (s.setReg rd (s.horner (s.coordAt idx.toNat))).tick) := by
  rw [execEvalp]
  cases hc : s.cfgv with
  | false => simp [s.requireConfig_of_unset _ _ hc]
  | true =>
    rw [s.requireConfig_of_set _ _ hc]
    cases hx : s.xv with
    | false => simp [s.requireCoords_of_unset _ _ hx]
    | true =>
      rw [s.requireCoords_of_set _ _ hx]
      by_cases h : idx.toNat < s.n.toNat
      · simp [s.requireCoordIndex_of_lt _ _ h, h]
      · simp [s.requireCoordIndex_of_ge _ _ (Nat.not_lt.mp h), Nat.not_lt.mp h]

/-- Everything the meaning of a command can do: a fault of a failed check, a register written, one effect of its
own, or a wait (spec 60 R201, R203; spec 70 R236, R237). -/
theorem exec_cases (i : Instr) (s : State) :
  (∃ c,
      exec i s = .next (s.raise c (encode i)) ∧ c ≠ .illegal ∧ c ≠ .entropy ∧ (i = .rndc ∨ i = .perm → s.cfgv = false)) ∨
  (∃ rd v, exec i s = .next (s.setReg rd v).tick ∧ i ≠ .rndc ∧ i ≠ .perm) ∨
  (i = .nop ∧ exec i s = .next s.tick) ∨
  (∃ k n, i = .cfg k n ∧ 2 ≤ k.toNat ∧ k.toNat ≤ n.toNat ∧ exec i s = .next (s.configure k n).tick) ∨
  (∃ rs1 idx, i = .wrc rs1 idx ∧ exec i s = .next (s.setCoef idx.toNat (s.reg rs1)).tick) ∨
  (∃ rs1, i = .out rs1 ∧ s.io.hostTakes = true ∧ exec i s = .next (s.emit (s.reg rs1)).tick) ∨
  (∃ rs1, i = .out rs1 ∧ s.io.hostTakes = false ∧ exec i s = .fault .awaitingHost) ∨
  (i = .rndc ∧ s.cfgv = true ∧ s.io.entropy = [] ∧ exec i s = .fault .awaitingEntropy) ∨
  (i = .perm ∧ s.cfgv = true ∧ s.io.permutations = [] ∧ exec i s = .fault .awaitingPermutation) ∨
  (i = .rndc ∧ s.cfgv = true ∧ ∃ a rest, s.io.entropy = a :: rest ∧
      exec i s = .next ((s.setEntropy rest).raise .entropy (encode .rndc))) ∨
  (i = .rndc ∧ s.cfgv = true ∧ ∃ bs rest, s.io.entropy = .ok bs :: rest ∧ bs.length = s.k.toNat - 1 ∧
      exec i s = .next ((s.setEntropy rest).setCoefRun 1 bs).tick) ∨
  (i = .rndc ∧ s.cfgv = true ∧ ∃ bs rest, s.io.entropy = .ok bs :: rest ∧ bs.length ≠ s.k.toNat - 1 ∧
      exec i s = .fault .entropyAnswerLength) ∨
  (i = .perm ∧ s.cfgv = true ∧ ∃ a rest, s.io.permutations = a :: rest ∧
      exec i s = .next ((s.setPermutations rest).raise .entropy (encode .perm))) ∨
  (i = .perm ∧ s.cfgv = true ∧ ∃ p rest, s.io.permutations = .ok p :: rest ∧ isPerm p s.n.toNat = true ∧
      exec i s = .next ((s.setPermutations rest).loadCoords p).tick) := by
  cases i with
  | nop => simp [exec, execNop]
  | gadd a b c => exact .inr (.inl ⟨_, _, rfl, by simp⟩)
  | gmul a b c => exact .inr (.inl ⟨_, _, rfl, by simp⟩)
  | ldi a b => exact .inr (.inl ⟨_, _, rfl, by simp⟩)
  | gdiv a b c =>
    obtain ⟨h, e⟩ | ⟨h, e⟩ := execGdiv_cases a b c s
    · exact .inl ⟨_, e, by simp⟩
    · exact .inr (.inl ⟨_, _, e, by simp⟩)
  | cfg k n =>
    obtain ⟨h, e⟩ | ⟨h, h', e⟩ := execCfg_cases k n s
    · exact .inl ⟨_, e, by simp⟩
    · exact .inr (.inr (.inr (.inl ⟨k, n, rfl, h, h', e⟩)))
  | wrc a b =>
    obtain ⟨h, e⟩ | ⟨h, e⟩ := execWrc_cases a b s
    · exact .inl ⟨_, e, by simp⟩
    · exact .inr (.inr (.inr (.inr (.inl ⟨a, b, rfl, e⟩))))
  | rdc a b =>
    obtain ⟨h, e⟩ | ⟨h, e⟩ := execRdc_cases a b s
    · exact .inl ⟨_, e, by simp⟩
    · exact .inr (.inl ⟨_, _, e, by simp⟩)
  | rndc =>
    obtain ⟨h, e⟩ | ⟨h, h', e⟩ | ⟨h, a, rest, h', e⟩ := execRndc_cases s
    · exact .inl ⟨_, e, by simp [h]⟩
    · simp_all [exec]
    · obtain ⟨h2, e2⟩ | ⟨bs, rfl, h2, e2⟩ | ⟨bs, rfl, h2, e2⟩ := takeCoefficients_cases (s.setEntropy rest) a
      · simp_all [exec]
      · refine .inr (.inr (.inr (.inr (.inr (.inr (.inr (.inr (.inr (.inr (.inl ⟨rfl, h, bs, rest, h', h2, ?_⟩))))))))))
        exact e.trans e2
      · refine .inr (.inr (.inr (.inr (.inr (.inr (.inr (.inr (.inr (.inr (.inr (.inl ⟨rfl, h, bs, rest, h', h2, ?_⟩)))))))))))
        exact e.trans e2
  | perm =>
    obtain ⟨h, e⟩ | ⟨h, h', e⟩ | ⟨h, a, rest, h', e⟩ := execPerm_cases s
    · exact .inl ⟨_, e, by simp [h]⟩
    · simp_all [exec]
    · obtain ⟨p, rfl, h2, e2⟩ | ⟨h2, e2⟩ := takePermutation_cases (s.setPermutations rest) a
      · refine .inr (.inr (.inr (.inr (.inr (.inr (.inr (.inr (.inr (.inr (.inr (.inr (.inr ⟨rfl, h, p, rest, h', h2, ?_⟩))))))))))))
        exact e.trans e2
      · refine .inr (.inr (.inr (.inr (.inr (.inr (.inr (.inr (.inr (.inr (.inr (.inr (.inl ⟨rfl, h, a, rest, h', ?_⟩))))))))))))
        exact e.trans e2
  | rdx a b =>
    obtain ⟨h, e⟩ | ⟨h, h', e⟩ | ⟨h, h', h'', e⟩ | ⟨h, h', h'', e⟩ := execRdx_cases a b s
    · exact .inl ⟨_, e, by simp⟩
    · exact .inl ⟨_, e, by simp⟩
    · exact .inl ⟨_, e, by simp⟩
    · exact .inr (.inl ⟨_, _, e, by simp⟩)
  | evalp a b =>
    obtain ⟨h, e⟩ | ⟨h, h', e⟩ | ⟨h, h', h'', e⟩ | ⟨h, h', h'', e⟩ := execEvalp_cases a b s
    · exact .inl ⟨_, e, by simp⟩
    · exact .inl ⟨_, e, by simp⟩
    · exact .inl ⟨_, e, by simp⟩
    · exact .inr (.inl ⟨_, _, e, by simp⟩)
  | eval a b =>
    obtain ⟨h, e⟩ | ⟨h, e⟩ := execEval_cases a b s
    · exact .inl ⟨_, e, by simp⟩
    · exact .inr (.inl ⟨_, _, e, by simp⟩)
  | out a =>
    obtain ⟨h, e⟩ | ⟨h, e⟩ := execOut_cases a s <;> simp [exec, h, e]

/-! ### The step -/

/-- A word is refused by a halted block, or illegal, or executed (spec 60 R205, spec 30 R76). -/
theorem acceptWord_cases (w : CmdWord) (s : State) :
    (s.fault = true ∧ acceptWord w s = .next s) ∨
    (s.fault = false ∧ (∃ e, decode w = .error e) ∧ acceptWord w s = .next (s.raise .illegal w)) ∨
    (s.fault = false ∧ ∃ i, decode w = .ok i ∧ acceptWord w s = exec i s) := by
  cases hf : s.fault with
  | true => simp [acceptWord, hf]
  | false => cases h : decode w <;> simp [acceptWord, hf, h]

/-- Everything a step can do. -/
theorem step_cases (s : State) :
    (s.io.events = [] ∧ step s = .next s) ∨
    (∃ e es, s.io.events = e :: es ∧ e.assertsReset = true ∧
      step s = .next (s.dropEvent.applyReset.setResetLine true)) ∨
    (∃ es, s.io.events = .resetRelease :: es ∧ s.io.resetLine = true ∧
      step s = .next (s.dropEvent.applyReset.setResetLine false)) ∨
    (∃ es, s.io.events = .resetRelease :: es ∧ s.io.resetLine = false ∧ step s = .next s.dropEvent) ∨
    (∃ w es, s.io.events = .command w :: es ∧ s.io.resetLine = true ∧ step s = .next s.dropEvent) ∨
    (∃ w es, s.io.events = .command w :: es ∧ s.io.resetLine = false ∧ step s = acceptWord w s.dropEvent) := by
  unfold step deliverNext
  cases h : s.io.events with
  | nil => simp
  | cons e es =>
    cases e <;> cases hr : s.io.resetLine <;> simp [deliver, HostEvent.assertsReset, hr]

end Sys2Proof.Machine
end

