-- ==== Sys2Proof/Laws/PerInstr.lean ====
section
/-! SUPPORT. Facts about each command as it is written: the word of a command meets the mask and match of its
opcode's row (spec 30 R75), and its operands stand in the fields of its format (R72). -/

namespace Sys2Proof.Laws.EncodesItsRow

def Statement (i : Instr) : Prop := encode i &&& i.op.mask = i.op.pattern ∧ i.wellFormed = true

theorem nop : Statement .nop := by
  refine ⟨?_, rfl⟩; decide

theorem gadd (rd rs1 rs2 : RegIdx) : Statement (.gadd rd rs1 rs2) := by
  refine ⟨?_, rfl⟩
  ext j hj
  simp only [encode, placeField, Instr.op, Op.mask, Op.pattern]
  interval_cases j <;> simp

theorem gmul (rd rs1 rs2 : RegIdx) : Statement (.gmul rd rs1 rs2) := by
  refine ⟨?_, rfl⟩
  ext j hj
  simp only [encode, placeField, Instr.op, Op.mask, Op.pattern]
  interval_cases j <;> simp

theorem gdiv (rd rs1 rs2 : RegIdx) : Statement (.gdiv rd rs1 rs2) := by
  refine ⟨?_, rfl⟩
  ext j hj
  simp only [encode, placeField, Instr.op, Op.mask, Op.pattern]
  interval_cases j <;> simp

theorem ldi (rd : RegIdx) (imm : Byte) : Statement (.ldi rd imm) := by
  refine ⟨?_, rfl⟩
  ext j hj
  simp only [encode, placeField, Instr.op, Op.mask, Op.pattern]
  interval_cases j <;> simp

theorem cfg (k n : Byte) : Statement (.cfg k n) := by
  refine ⟨?_, rfl⟩
  ext j hj
  simp only [encode, placeField, Instr.op, Op.mask, Op.pattern]
  interval_cases j <;> simp

theorem wrc (rs1 : RegIdx) (idx : Byte) : Statement (.wrc rs1 idx) := by
  refine ⟨?_, rfl⟩
  ext j hj
  simp only [encode, placeField, Instr.op, Op.mask, Op.pattern]
  interval_cases j <;> simp

theorem rdc (rd : RegIdx) (idx : Byte) : Statement (.rdc rd idx) := by
  refine ⟨?_, rfl⟩
  ext j hj
  simp only [encode, placeField, Instr.op, Op.mask, Op.pattern]
  interval_cases j <;> simp

theorem rndc : Statement .rndc := by
  refine ⟨?_, rfl⟩; decide

theorem perm : Statement .perm := by
  refine ⟨?_, rfl⟩; decide

theorem rdx (rd : RegIdx) (idx : Byte) : Statement (.rdx rd idx) := by
  refine ⟨?_, rfl⟩
  ext j hj
  simp only [encode, placeField, Instr.op, Op.mask, Op.pattern]
  interval_cases j <;> simp

theorem eval (rd rs1 : RegIdx) : Statement (.eval rd rs1) := by
  refine ⟨?_, rfl⟩
  ext j hj
  simp only [encode, placeField, Instr.op, Op.mask, Op.pattern]
  interval_cases j <;> simp

theorem evalp (rd : RegIdx) (idx : Byte) : Statement (.evalp rd idx) := by
  refine ⟨?_, rfl⟩
  ext j hj
  simp only [encode, placeField, Instr.op, Op.mask, Op.pattern]
  interval_cases j <;> simp

theorem out (rs1 : RegIdx) : Statement (.out rs1) := by
  refine ⟨?_, rfl⟩
  ext j hj
  simp only [encode, placeField, Instr.op, Op.mask, Op.pattern]
  interval_cases j <;> simp

end Sys2Proof.Laws.EncodesItsRow

namespace Sys2Proof.Laws.BuildsFromItsWord

def Statement (i : Instr) : Prop := i.op.build (encode i) = i

theorem nop : Statement .nop := rfl

theorem gadd (rd rs1 rs2 : RegIdx) : Statement (.gadd rd rs1 rs2) := by
  simp only [Statement, Instr.op, Op.build, rdField, rs1Field, rs2Field, encode, placeField, Instr.gadd.injEq]
  refine ⟨?_, ?_, ?_⟩ <;> ext j hj <;> interval_cases j <;> simp

theorem gmul (rd rs1 rs2 : RegIdx) : Statement (.gmul rd rs1 rs2) := by
  simp only [Statement, Instr.op, Op.build, rdField, rs1Field, rs2Field, encode, placeField, Instr.gmul.injEq]
  refine ⟨?_, ?_, ?_⟩ <;> ext j hj <;> interval_cases j <;> simp

theorem gdiv (rd rs1 rs2 : RegIdx) : Statement (.gdiv rd rs1 rs2) := by
  simp only [Statement, Instr.op, Op.build, rdField, rs1Field, rs2Field, encode, placeField, Instr.gdiv.injEq]
  refine ⟨?_, ?_, ?_⟩ <;> ext j hj <;> interval_cases j <;> simp

theorem ldi (rd : RegIdx) (imm : Byte) : Statement (.ldi rd imm) := by
  simp only [Statement, Instr.op, Op.build, immField, rdField, encode, placeField, Instr.ldi.injEq]
  refine ⟨?_, ?_⟩ <;> ext j hj <;> interval_cases j <;> simp

theorem cfg (k n : Byte) : Statement (.cfg k n) := by
  simp only [Statement, Instr.op, Op.build, imm2Field, immField, encode, placeField, Instr.cfg.injEq]
  refine ⟨?_, ?_⟩ <;> ext j hj <;> interval_cases j <;> simp

theorem wrc (rs1 : RegIdx) (idx : Byte) : Statement (.wrc rs1 idx) := by
  simp only [Statement, Instr.op, Op.build, immField, rs1Field, encode, placeField, Instr.wrc.injEq]
  refine ⟨?_, ?_⟩ <;> ext j hj <;> interval_cases j <;> simp

theorem rdc (rd : RegIdx) (idx : Byte) : Statement (.rdc rd idx) := by
  simp only [Statement, Instr.op, Op.build, immField, rdField, encode, placeField, Instr.rdc.injEq]
  refine ⟨?_, ?_⟩ <;> ext j hj <;> interval_cases j <;> simp

theorem rndc : Statement .rndc := rfl

theorem perm : Statement .perm := rfl

theorem rdx (rd : RegIdx) (idx : Byte) : Statement (.rdx rd idx) := by
  simp only [Statement, Instr.op, Op.build, immField, rdField, encode, placeField, Instr.rdx.injEq]
  refine ⟨?_, ?_⟩ <;> ext j hj <;> interval_cases j <;> simp

theorem eval (rd rs1 : RegIdx) : Statement (.eval rd rs1) := by
  simp only [Statement, Instr.op, Op.build, rdField, rs1Field, encode, placeField, Instr.eval.injEq]
  refine ⟨?_, ?_⟩ <;> ext j hj <;> interval_cases j <;> simp

theorem evalp (rd : RegIdx) (idx : Byte) : Statement (.evalp rd idx) := by
  simp only [Statement, Instr.op, Op.build, immField, rdField, encode, placeField, Instr.evalp.injEq]
  refine ⟨?_, ?_⟩ <;> ext j hj <;> interval_cases j <;> simp

theorem out (rs1 : RegIdx) : Statement (.out rs1) := by
  simp only [Statement, Instr.op, Op.build, rs1Field, encode, placeField, Instr.out.injEq]
  ext j hj; interval_cases j <;> simp

end Sys2Proof.Laws.BuildsFromItsWord
end

