-- ==== Sys2Proof/Laws/Tables.lean ====
section
/-! SUPPORT. The ROM constants of R35 are the tables of the vector parameters, and those parameters are legal. -/

namespace Sys2Proof

theorem FieldParams.length_powersFrom (p : FieldParams) (count : Nat) (v : Byte) :
    (p.powersFrom count v).length = count := by
  induction count generalizing v with
  | zero => rfl
  | succ c ih => simp [FieldParams.powersFrom, ih]

/-- The entries of a run of powers are powers. -/
theorem FieldParams.getElem?_powersFrom (p : FieldParams) (count i j : Nat) (h : j < count) :
    (p.powersFrom count (p.pow p.gen i))[j]? = some (p.pow p.gen (i + j)) := by
  induction count generalizing i j with
  | zero => omega
  | succ c ih =>
    cases j with
    | zero => rfl
    | succ j =>
      have := ih (i + 1) j (by omega)
      simpa [FieldParams.powersFrom, FieldParams.pow, Nat.add_assoc, Nat.add_comm 1 j] using this

namespace Machine

theorem vectorParams_legal : Config.vectorParams.legal = true := by decide +kernel

theorem vectorParams_powers : Config.vectorParams.powers = Config.vectorExpRows.take 255 := by decide +kernel

/-- The two literal tables invert each other on 0..254 and on the nonzero bytes. -/
theorem vectorLog_vectorExp : ∀ i < 255,
    Config.vectorLogRows[((Config.vectorExpRows.take 255)[i]?.getD 0).toNat]? = some (BitVec.ofNat 8 i) := by
  decide +kernel

theorem vectorExp_vectorLog : ∀ v < 256, v ≠ 0 →
    (Config.vectorExpRows.take 255)[(Config.vectorLogRows[v]?.getD 0).toNat]? = some (BitVec.ofNat 8 v) := by
  decide +kernel

/-- The logarithm of a nonzero byte is the literal table's entry. -/
theorem logOf_vectorParams (v : Nat) (hv : v < 256) (h0 : v ≠ 0) :
    Config.vectorParams.logOf (BitVec.ofNat 8 v) = Config.vectorLogRows[v]?.getD 0 := by
  have hx := vectorExp_vectorLog v hv h0
  obtain ⟨hl, hx⟩ := List.getElem?_eq_some_iff.mp hx
  have hm : BitVec.ofNat 8 v ∈ Config.vectorExpRows.take 255 := hx ▸ List.getElem_mem hl
  have hne : BitVec.ofNat 8 v ≠ 0 := fun e => h0 (by simpa [Nat.mod_eq_of_lt hv] using congrArg BitVec.toNat e)
  have hi := List.idxOf_lt_length_iff.mpr hm
  have hlen : (Config.vectorExpRows.take 255).length = 255 := by decide +kernel
  have inv := vectorLog_vectorExp _ (hlen ▸ hi)
  rw [List.getElem?_eq_getElem hi, List.getElem_idxOf hi, Option.getD_some, BitVec.toNat_ofNat,
    Nat.mod_eq_of_lt hv] at inv
  rw [FieldParams.logOf, if_neg hne, vectorParams_powers, inv, Option.getD_some]

/-- The literal tables of R35 are what R31 and R32 define at 0x11B and 0xE5. -/
theorem rom_vector : Rom.vector = Config.vectorParams.rom := by
  have he : Rom.vector.exp = Config.vectorParams.rom.exp := by
    refine Vector.ext fun i hi => ?_
    have len : Config.vectorExpRows.length = 256 := by decide +kernel
    have lit : Rom.vector.exp[i] = Config.vectorExpRows[i]'(len ▸ hi) := rfl
    have top : ∀ h, Config.vectorExpRows[255]'h = 1 := by decide +kernel
    rw [lit]
    simp only [FieldParams.rom, Vector.getElem_ofFn, vectorParams_powers, List.getElem?_take]
    by_cases h : i < 255
    · rw [if_pos h, List.getElem?_eq_getElem (len ▸ hi), Option.getD_some]
    · obtain rfl : i = 255 := by omega
      rw [if_neg (by omega), Option.getD_none, top]
  have hl : Rom.vector.log = Config.vectorParams.rom.log := by
    refine Vector.ext fun i hi => ?_
    simp only [FieldParams.rom, Vector.getElem_ofFn]
    by_cases h0 : i = 0
    · subst h0; rfl
    · have len : Config.vectorLogRows.length = 256 := by decide +kernel
      rw [logOf_vectorParams i hi h0, List.getElem?_eq_getElem (len ▸ hi), Option.getD_some]
      rfl
  cases hr : Rom.vector
  simp_all

end Machine

end Sys2Proof
end

