-- ==== Sys2Proof/Tests/Slice0.lean ====
section
/-! SUPPORT. The model's own tests, their expected results taken from the worked examples and vectors of spec/ (the
file and section in each comment), and for each obligation with hypotheses a state and operands that meet them. -/

namespace Sys2Proof.Tests

open Machine

/-! ### Helpers -/

/-- A value of the next state, if there is one. -/
def after {α : Type} (r : Result) (f : State → α) : Option α :=
  match r with
  | .next t => some (f t)
  | _ => none

/-- The state with two registers set. -/
def withRegs (s : State) (r1 : RegIdx) (v1 : Byte) (r2 : RegIdx) (v2 : Byte) : State := (s.setReg r1 v1).setReg r2 v2

/-- After `cfg 2, 3` from reset. -/
def configured : State := State.reset.configure 2 3

/-- Then after a PERM answered Ok(2, 0, 1). -/
def routed : State := configured.loadCoords [2, 0, 1]

/-- A state with K = 3 and C[0..2] = (11, 22, 33), the polynomial of spec 95 section 2.8. -/
def quadratic : State := (State.reset.configure 3 5).setCoefRun 0 [0x11, 0x22, 0x33]

def withEvents (s : State) (events : List HostEvent) : State := { s with io := { s.io with events := events } }

/-- The fault record after an outcome: FAULT, CAUSE, FCMD. -/
def record (r : Result) : Option (Bool × BitVec 4 × CmdWord) := after r fun t => (t.fault, t.cause, t.fcmd)

def isIllegal (w : CmdWord) : Bool :=
  match decode w with
  | .ok _ => false
  | .error _ => true

/-! ### Decoding: words written out from the formats of spec 30 R72, and R81 -/

theorem test_decode_nop : decode 0b0000_0000_0000_0000_0000_0000_0000_0000 = .ok .nop := by decide
theorem test_decode_gadd : decode 0b0001_0011_0001_0010_0000_0000_0000_0000 = .ok (.gadd 3 1 2) := by decide
theorem test_decode_gmul : decode 0b0010_0011_0001_0010_0000_0000_0000_0000 = .ok (.gmul 3 1 2) := by decide
theorem test_decode_gdiv : decode 0b0011_0101_0011_0010_0000_0000_0000_0000 = .ok (.gdiv 5 3 2) := by decide
theorem test_decode_ldi : decode 0b0100_0001_0000_0000_0101_0111_0000_0000 = .ok (.ldi 1 0x57) := by decide
theorem test_decode_cfg : decode 0b0101_0000_0000_0000_0000_0010_0000_0011 = .ok (.cfg 2 3) := by decide
theorem test_decode_wrc : decode 0b0110_0000_0111_0000_0000_0010_0000_0000 = .ok (.wrc 7 2) := by decide
theorem test_decode_rdc : decode 0b0111_0100_0000_0000_0000_0001_0000_0000 = .ok (.rdc 4 1) := by decide
theorem test_decode_rndc : decode 0b1000_0000_0000_0000_0000_0000_0000_0000 = .ok .rndc := by decide
theorem test_decode_perm : decode 0b1001_0000_0000_0000_0000_0000_0000_0000 = .ok .perm := by decide
theorem test_decode_rdx : decode 0b1010_0100_0000_0000_0000_0010_0000_0000 = .ok (.rdx 4 2) := by decide
theorem test_decode_eval : decode 0b1011_0110_0010_0000_0000_0000_0000_0000 = .ok (.eval 6 2) := by decide
theorem test_decode_evalp : decode 0b1100_0001_0000_0000_0000_0000_0000_0000 = .ok (.evalp 1 0) := by decide
theorem test_decode_out : decode 0b1101_0000_1111_0000_0000_0000_0000_0000 = .ok (.out 15) := by decide

/-- Spec 95 section 2.9: reserved opcodes, and the lowest and highest reserved bit of each format. -/
theorem test_decode_illegal :
    [0x00000001, 0xE0000000, 0xFFFFFFFF, 0xF0000000, 0x13120001, 0x33120100, 0x80000001, 0x08000000, 0x13128000,
      0xB6200001, 0xB6280000, 0xD0F00001, 0xD1F00000, 0x41005701, 0x41805700, 0x60700201, 0x61700200, 0x60780200,
      0x50010203, 0x58000203].all isIllegal = true := by decide

theorem test_decode_rejects_by_name :
    decode 0xE0000000 = .error .reservedOpcode ∧ decode 0x13120001 = .error (.reservedBit .gadd) := by decide

theorem test_table_word : decodeTableWord 32 0xB6200000 = some (.eval 6 2) ∧ decodeTableWord 32 0xE0000000 = none := by
  decide

/-- The encoder on R81's words. -/
theorem test_encode :
    [encode (.gadd 3 1 2), encode (.cfg 2 3), encode (.wrc 7 2), encode (.evalp 1 0), encode (.out 15)]
      = [0x13120000, 0x50000203, 0x60700200, 0xC1000000, 0xD0F00000] := by decide

/-! ### Well-formed lines (R79): an ill-formed line for each operand check, which the check refuses -/

theorem smoke_wellFormed_register :
    ([.gadd 16 0 0, .gadd 0 16 0, .gadd 0 0 16, .eval 16 0, .eval 0 16, .ldi 16 0, .wrc 0 16, .out 16, .clr 16]
      : List Asm).all (fun a => !a.wellFormed && (assemble a).isNone) = true := by decide

theorem smoke_wellFormed_immediate :
    ([.ldi 0 256, .rdc 0 256, .rdx 0 256, .evalp 0 256, .wrc 256 0, .cfg 256 0, .cfg 0 256] : List Asm).all
      (fun a => !a.wellFormed && (assemble a).isNone) = true := by decide

theorem smoke_wellFormed_word :
    (Asm.word (2 ^ 32)).wellFormed = false ∧ (Asm.word (2 ^ 32 - 1)).wellFormed = true ∧
      (Asm.wrc 255 15).wellFormed = true := by decide

/-- Spec 95 section 2.2 and P3: `gsq r7, r1` and `clr r2`. -/
theorem test_pseudo : assemble (.gsq 7 1) = some 0x27110000 ∧ assemble (.clr 2) = some 0x42000000 := by decide

/-- Text of R79: "wrc 254, r7 ; x" and ".word 0xE" (spec 95 section 2.7). -/
theorem test_text :
    assembleText ['w', 'r', 'c', ' ', '2', '5', '4', ',', ' ', 'r', '7', ' ', ';', ' ', 'x'] = some [0x6070FE00] ∧
    assembleText ['.', 'w', 'o', 'r', 'd', ' ', '0', 'x', 'E'] = some [0xE] ∧ assembleText [' ', ';'] = some [] := by
  decide +kernel

/-! ### Field engine: spec 95 sections 2.1 to 2.3, at the vector parameters -/

theorem test_gadd : after (exec (.gadd 3 1 2) (withRegs .reset 1 0x57 2 0x83)) (·.reg 3) = some 0xD4 := by decide +kernel

theorem test_gadd_same : after (exec (.gadd 1 1 1) (withRegs .reset 1 0x9C 2 0x83)) (·.reg 1) = some 0 := by
  decide +kernel

/-- Rows 57·83, 53·CA (sum 255), 0E·0E (largest sum), 00·AB and AB·00 (masked). -/
theorem test_gfMul :
    [gfMul Rom.vector 0x57 0x83, gfMul Rom.vector 0x53 0xCA, gfMul Rom.vector 0x0E 0x0E, gfMul Rom.vector 0 0xAB,
      gfMul Rom.vector 0xAB 0] = [0xC1, 0x01, 0x54, 0, 0] := by decide +kernel

theorem test_gmul : after (exec (.gmul 3 1 2) (withRegs .reset 1 0x57 2 0x83)) (·.reg 3) = some 0xC1 := by decide +kernel

/-- Rows C1/83, 01/0E (most negative difference), 03/02, 00/57. -/
theorem test_gfDiv :
    [gfDiv Rom.vector 0xC1 0x83, gfDiv Rom.vector 0x01 0x0E, gfDiv Rom.vector 0x03 0x02, gfDiv Rom.vector 0 0x57]
      = [0x57, 0xE5, 0x8C, 0] := by decide +kernel

theorem test_gdiv : after (exec (.gdiv 5 3 2) (withRegs .reset 3 0xC1 2 0x83)) (·.reg 5) = some 0x57 := by decide +kernel

/-- C3: 0/0 faults. -/
theorem test_gdiv_zero : record (exec (.gdiv 3 1 2) .reset) = some (true, 0x2, 0x33120000) := by decide +kernel

/-- The product as polynomials, FIPS-197's example (G5), and the R34 reduction step 02·80 = 1B. -/
theorem test_field_product :
    Config.vectorParams.mul 0x57 0x83 = 0xC1 ∧ Config.vectorParams.mul 0x02 0x80 = 0x1B := by decide

/-- R8: reducible polynomials, a degree below 8, and generators of a lower order are refused. -/
theorem test_illegal_parameters :
    FieldParams.polyLegal ⟨0x101, 0xE5⟩ = false ∧ FieldParams.polyLegal ⟨0x01B, 0xE5⟩ = false ∧
      FieldParams.genLegal ⟨0x11B, 0x02⟩ = false ∧ FieldParams.genLegal ⟨0x11B, 0x01⟩ = false := by decide +kernel

/-! ### Control: spec 95 sections 2.4 and 2.5 -/

theorem test_nop : after (exec .nop { State.reset with cc := 5 }) (·.cc) = some 6 := by decide

theorem test_cc_wraps : after (exec .nop { State.reset with cc := 0xFFFFFFFF }) (·.cc) = some 0 := by decide

theorem test_ldi : after (exec (.ldi 15 0xFF) .reset) (·.reg 15) = some 0xFF := by decide +kernel

theorem test_cfg :
    after (exec (.cfg 255 255) routed) (fun t => (t.k, t.n, t.cfgv, t.xv)) = some (255, 255, true, false) := by decide

theorem test_cfg_refused :
    record (exec (.cfg 1 5) .reset) = some (true, 0x3, 0x50000105) ∧
      record (exec (.cfg 5 3) .reset) = some (true, 0x3, 0x50000503) := by decide

theorem test_out : after (exec (.out 3) { State.reset.setReg 3 0xC1 with outq := [0x2A] }) (·.outq) = some [0x2A, 0xC1] := by
  decide +kernel

/-! ### Coordinates: spec 95 section 2.6 -/

theorem test_perm :
    after (exec .perm (State.setPermutations configured [.ok [2, 0, 1]]))
      (fun t => ([t.coordAt 0, t.coordAt 1, t.coordAt 2, t.coordAt 3], t.xv)) = some ([2, 0, 1, 0], true) := by
  decide +kernel

theorem test_perm_refused :
    [Answer.ok [2, 2, 1], .ok [0, 1, 3], .ok [0, 1], .fail].map
      (fun a => record (exec .perm (State.setPermutations configured [a]))) =
      List.replicate 4 (some (true, 0x6, 0x90000000)) := by decide +kernel

theorem test_rdx : after (exec (.rdx 4 2) routed) (·.reg 4) = some 1 := by decide +kernel

/-- INDEX at idx = N, SEQUENCE before INDEX, CONFIG before both. -/
theorem test_rdx_refused :
    record (exec (.rdx 4 3) routed) = some (true, 0x5, 0xA4000300) ∧
      record (exec (.rdx 1 5) configured) = some (true, 0x4, 0xA1000500) ∧
      record (exec (.rdx 1 200) .reset) = some (true, 0x3, 0xA100C800) := by decide +kernel

/-! ### Polynomial: spec 95 sections 2.7 and 2.8 -/

theorem test_wrc : after (exec (.wrc 7 254) (State.reset.setReg 7 0x11)) (·.coefAt 254) = some 0x11 := by decide +kernel

theorem test_wrc_refused : record (exec (.wrc 7 255) .reset) = some (true, 0x5, 0x6070FF00) := by decide +kernel

theorem test_rdc : after (exec (.rdc 4 1) quadratic) (·.reg 4) = some 0x22 := by decide +kernel

theorem test_rdc_refused : record (exec (.rdc 4 255) .reset) = some (true, 0x5, 0x7400FF00) := by decide +kernel

theorem test_rndc :
    after (exec .rndc (State.setEntropy (quadratic.setCoef 0 0x48) [.ok [0x9C, 0x07]]))
      (fun t => [t.coefAt 0, t.coefAt 1, t.coefAt 2, t.coefAt 3]) = some [0x48, 0x9C, 0x07, 0] := by decide +kernel

theorem test_rndc_refused :
    after (exec .rndc (State.setEntropy quadratic [.fail])) (fun t => (t.cause, t.coefAt 1)) = some (0x6, 0x22) := by
  decide +kernel

/-- x = 02 in R2: 99, also with rd = rs1; x = 01 gives 00 and x = FF gives 6E. -/
theorem test_eval :
    after (exec (.eval 2 2) (quadratic.setReg 2 0x02)) (·.reg 2) = some 0x99 ∧ quadratic.horner 0x01 = 0x00 ∧
      quadratic.horner 0xFF = 0x6E := by decide +kernel

/-- The example of R175: shares 8C, 2A and 79. -/
theorem test_evalp :
    [0, 1, 2].map (fun i => after (exec (.evalp 1 i) (routed.setCoefRun 0 [0x2A, 0x53])) (·.reg 1))
      = [some 0x8C, some 0x2A, some 0x79] := by decide +kernel

theorem test_eval_refused : record (exec (.eval 6 2) .reset) = some (true, 0x3, 0xB6200000) := by decide +kernel

/-! ### Step, halt, RESET, status port: spec 95 sections 2.9, P3, P4 -/

theorem test_step_first_word : after (step (State.reset.withFetchWord 32 0x41005700)) (·.reg 1) = some 0x57 := by
  decide +kernel

/-- Decode comes before the divisor check. -/
theorem test_step_illegal : record (step (State.reset.withFetchWord 32 0x33120100)) = some (true, 0x1, 0x33120100) := by
  decide +kernel

/-- STATUS of P3's end state: 0x0000_0201. -/
theorem test_status : after (exec (.gdiv 3 1 2) .reset) (·.statusRead 0) = some 0x00000201 := by decide +kernel

theorem test_config_word : configured.statusRead 1 = 0x00000302 := by decide

/-- R240, R241: PERM takes N units, a faulting command has none. -/
theorem test_latency :
    latency .perm (State.setPermutations configured [.ok [2, 0, 1]]) = some 3 ∧ latency .perm .reset = none := by
  decide +kernel

/-! ### Witnesses: a state and operands that meet the hypotheses of each obligation that has some -/

theorem witness_EncodeOfDecodeIsTheWord : decode 0x13120000 = .ok (.gadd 3 1 2) := by decide

/-- A state that receives a word. -/
theorem witness_receives (w : CmdWord) : (withEvents .reset [.command w]).Receives w [] := ⟨rfl, rfl, rfl⟩

/-- A reserved opcode and a reserved bit; and RDC with index 255, a legal word that faults. -/
theorem witness_IllegalWordsAndNoOthersRaiseIllegal :
    0xE ≤ ((0xE0000000 : CmdWord) >>> 28).toNat ∧ ((0xD1F00000 : CmdWord) >>> 28).toNat = 0xD ∧
      (0xD1F00000 : CmdWord) &&& 0x0F0FFFFF ≠ 0 ∧ (withEvents .reset [.command 0xE0000000]).Receives 0xE0000000 [] ∧
      ((0x7400FF00 : CmdWord) >>> 28).toNat = 0x7 ∧ (0x7400FF00 : CmdWord) &&& 0x00FF00FF = 0 ∧
      (withEvents .reset [.command 0x7400FF00]).Receives 0x7400FF00 [] ∧
      ∃ t, step (withEvents .reset [.command 0x7400FF00]) = .next t ∧ t.fault = true :=
  ⟨by decide, by decide, by decide, witness_receives _, by decide, by decide, witness_receives _, _, rfl, rfl⟩

theorem witness_AssembledLinesDecodeToTheirCommand :
    (15 : RegIdx).toNat = 15 ∧ (0 : RegIdx).toNat = 0 ∧ (7 : RegIdx).toNat = 7 ∧ (255 : Byte).toNat = 255 ∧
      (0 : Byte).toNat = 0 := by decide

theorem witness_StepRunsTheDecodedCommand :
    (withEvents .reset [.command 0x41005700]).Receives 0x41005700 [] ∧ decode 0x41005700 = .ok (.ldi 1 0x57) :=
  ⟨witness_receives _, by decide⟩

/-- A halted state with two more words and a RESET to come. -/
def halted : State := withEvents (State.reset.raise .illegal 1) [.command 0, .command 0x50000203, .resetAssert]

theorem witness_HaltedBlockRefusesEveryWord :
    halted.fault = true ∧ halted.io.resetLine = false ∧
      halted.io.events = [0, 0x50000203].map .command ++ [.resetAssert] := ⟨rfl, rfl, rfl⟩

theorem witness_ResetGivesTheResetState :
    (withEvents halted [.resetAssert]).io.events = .resetAssert :: [] ∧
      HostEvent.resetAssert.assertsReset = true ∧ (HostEvent.resetDuring 0x80000000).assertsReset = true ∧
      ((withEvents .reset [.resetRelease]).setResetLine true).io.resetLine = true ∧
      ((withEvents .reset [.command 0]).setResetLine true).io.events = .command 0 :: [] := ⟨rfl, rfl, rfl, rfl, rfl⟩

/-- The reset state of the vector parameters, halted, with a RESET to come, meets the invariant. -/
def haltedAtRom (events : List HostEvent) : State :=
  withEvents ((State.resetWith Config.vectorParams).raise .illegal 1) events

theorem witness_inv_halted (events : List HostEvent) : Inv Config.vectorParams (haltedAtRom events) where
  rom := rfl
  configured h := nomatch h
  unconfigured _ := ⟨rfl, rfl⟩
  coords h := nomatch h
  no_record h := nomatch h
  record _ := (by decide : 1 ≤ (0x1#4).toNat ∧ (0x1#4).toNat ≤ 6)
  in_reset h := nomatch h

theorem witness_OnlyResetLeavesTheHaltedState :
    Inv Config.vectorParams (haltedAtRom [.resetAssert]) ∧ (haltedAtRom [.resetAssert]).fault = true ∧
      ∃ t, step (haltedAtRom [.resetAssert]) = .next t ∧ t.fault = false :=
  ⟨witness_inv_halted _, rfl, _, rfl, rfl⟩

theorem witness_IdleBlockKeepsItsState :
    State.reset.io.events = [] ∧ (withEvents .reset [.resetRelease]).io.events = .resetRelease :: [] ∧
      (withEvents .reset [.resetRelease]).io.resetLine = false := ⟨rfl, rfl, rfl⟩

/-- For the obligations about fields: a polynomial of degree 8, legal parameters, and two legal generators of one
field (0x03 is the other usual generator of 0x11B). -/
theorem witness_FieldProductIsThePolynomialProduct : Config.vectorParams.poly.getLsbD 8 = true := by decide

theorem witness_legal : Config.vectorParams.legal = true := vectorParams_legal

theorem witness_ExpHoldsThePowersOfTheGenerator : (0 : Byte).toNat ≤ 254 ∧ (254 : Byte).toNat ≤ 254 := by decide

theorem witness_LogInvertsExp :
    Config.vectorParams.legal = true ∧ (254 : Byte).toNat ≤ 254 ∧ (1 : Byte) ≠ 0 ∧ (0xFF : Byte) ≠ 0 :=
  ⟨vectorParams_legal, by decide, by decide, by decide⟩

theorem witness_TableProcedureBuildsTheTables : Config.vectorParams.legal = true := vectorParams_legal

theorem witness_ExpIsIndexedBelow255 : Config.vectorParams.legal = true := vectorParams_legal

theorem witness_MaskedDatapathMeetsTheSourceFormulas : Config.vectorParams.legal = true ∧ (1 : Byte) ≠ 0 :=
  ⟨vectorParams_legal, by decide⟩

theorem witness_TablesMultiplyAndDivideInTheField : Config.vectorParams.legal = true ∧ (1 : Byte) ≠ 0 :=
  ⟨vectorParams_legal, by decide⟩

/-- A block starts with the vector parameters. -/
theorem witness_ModelStartsExactlyWithLegalParameters : ∃ s, State.boot Config.vectorParams = .ok s :=
  ⟨_, if_pos vectorParams_legal⟩

theorem witness_GeneratorShowsInNoResult :
    Config.vectorParams.legal = true ∧ (FieldParams.mk 0x11B 0x03).legal = true ∧
      Config.vectorParams.poly = (FieldParams.mk 0x11B 0x03).poly ∧ State.reset.rom = Config.vectorParams.rom :=
  ⟨vectorParams_legal, by decide +kernel, rfl, rom_vector⟩

theorem witness_Exp255ShowsInNoResult :
    Config.vectorParams.legal = true ∧ State.reset.rom = Config.vectorParams.rom := ⟨vectorParams_legal, rom_vector⟩

/-- GMUL and GDIV: both a zero and a nonzero operand, and legal tables. -/
theorem witness_GdivDividesOrTakesDivZero :
    State.reset.reg 2 = 0 ∧ (State.reset.setReg 2 1).reg 2 ≠ 0 ∧ Config.vectorParams.legal = true ∧
      State.reset.rom = Config.vectorParams.rom :=
  ⟨by decide +kernel, by decide +kernel, vectorParams_legal, rom_vector⟩

theorem witness_NopOnlyCounts :
    (withEvents .reset [.command 0]).Receives 0x00000000 [] ∧ (1 : CmdWord) >>> 28 = 0 ∧ (1 : CmdWord) ≠ 0 :=
  ⟨witness_receives _, by decide, by decide⟩

/-- CFG at the edges of its clauses: k = 1, k = n + 1; k = n = 2, k = n = 255. -/
theorem witness_CfgConfiguresOrTakesConfig :
    (1 : Byte).toNat < 2 ∧ (2 : Byte).toNat < (3 : Byte).toNat ∧ 2 ≤ (2 : Byte).toNat ∧
      (2 : Byte).toNat ≤ (2 : Byte).toNat ∧ 2 ≤ (255 : Byte).toNat := by decide

theorem witness_OutAppendsItsRegister :
    State.reset.io.hostTakes = true ∧ ({ State.reset.io with hostTakes := false } : Ports).hostTakes = false :=
  ⟨rfl, rfl⟩

/-- Each clause of PERM: not configured; the answer Ok(2, 0, 1); an element equal to N, a wrong length, a repeated
element; Fail; no answer. -/
theorem witness_PermLoadsThePermutationOrFaults :
    State.reset.cfgv = false ∧ configured.cfgv = true ∧
      (State.setPermutations configured [.ok [2, 0, 1]]).io.permutations = .ok [2, 0, 1] :: [] ∧
      [2, 0, 1].length = configured.n.toNat ∧ (∀ b ∈ ([2, 0, 1] : List Byte), b.toNat < configured.n.toNat) ∧
      ([2, 0, 1] : List Byte).Nodup ∧ (∃ b ∈ ([0, 1, 3] : List Byte), configured.n.toNat ≤ b.toNat) ∧
      ([0, 1] : List Byte).length ≠ configured.n.toNat ∧ ¬ ([2, 2, 1] : List Byte).Nodup ∧
      (State.setPermutations configured [.fail]).io.permutations = .fail :: [] ∧ configured.io.permutations = [] := by
  decide

/-- RDX and EVALP: not configured, no coordinates, idx = N, idx = N - 1. -/
theorem witness_RdxReadsTheCoordinateOrFaults :
    State.reset.cfgv = false ∧ configured.cfgv = true ∧ configured.xv = false ∧ routed.cfgv = true ∧ routed.xv = true ∧
      routed.n.toNat ≤ (3 : Byte).toNat ∧ (2 : Byte).toNat < routed.n.toNat := by decide

/-- The same, at tables of legal parameters and with K >= 2. -/
theorem witness_EvalpWritesTheShareOrFaults :
    Config.vectorParams.legal = true ∧ routed.rom = Config.vectorParams.rom ∧ 2 ≤ routed.k.toNat ∧
      routed.cfgv = true ∧ routed.xv = true ∧ (2 : Byte).toNat < routed.n.toNat :=
  ⟨vectorParams_legal, rom_vector, by decide, rfl, rfl, by decide⟩

theorem witness_HornerIsThePolynomialValue :
    Config.vectorParams.legal = true ∧ quadratic.rom = Config.vectorParams.rom ∧ 2 ≤ quadratic.k.toNat :=
  ⟨vectorParams_legal, rom_vector, by decide⟩

theorem witness_EvalWritesThePolynomialValueOrTakesConfig :
    State.reset.cfgv = false ∧ quadratic.cfgv = true ∧ Config.vectorParams.legal = true ∧
      quadratic.rom = Config.vectorParams.rom ∧ 2 ≤ quadratic.k.toNat :=
  ⟨rfl, rfl, vectorParams_legal, rom_vector, by decide⟩

/-- A block of the vector parameters after PERM meets the invariant. -/
def routedAtRom : State := ((State.resetWith Config.vectorParams).configure 2 3).loadCoords [2, 0, 1]

theorem witness_inv_routed : Inv Config.vectorParams routedAtRom :=
  { rom := rfl
    configured := fun _ => by decide
    unconfigured := fun h => nomatch h
    coords := fun _ => ⟨rfl, by decide +kernel⟩
    no_record := fun _ => ⟨rfl, rfl⟩
    record := fun h => nomatch h
    in_reset := fun h => nomatch h }

theorem witness_CoordinatesAreAPermutationAndZeroGetsTheIntercept :
    Inv Config.vectorParams routedAtRom ∧ routedAtRom.xv = true ∧ (2 : Byte).toNat < routedAtRom.n.toNat ∧
      (1 : Byte).toNat < routedAtRom.n.toNat ∧ routedAtRom.coordAt (1 : Byte).toNat = 0 :=
  ⟨witness_inv_routed, rfl, by decide, by decide, by decide +kernel⟩

theorem witness_EveryStepKeepsTheInvariant : ∃ t, Inv Config.vectorParams routedAtRom ∧ step routedAtRom = .next t :=
  ⟨_, witness_inv_routed, rfl⟩

/-- WRC and RDC: the index 255, and the last legal index. -/
theorem witness_WrcWritesTheCoefficientOrTakesIndex : (255 : Byte).toNat = 255 ∧ (254 : Byte).toNat ≤ 254 := by decide

theorem witness_RdcReadsTheCoefficientOrTakesIndex : (255 : Byte).toNat = 255 ∧ (254 : Byte).toNat ≤ 254 := by decide

/-- Each stop of a command: RNDC without an answer and with one of another length, PERM without an answer, OUT with
a host that does not take the byte. -/
theorem witness_CommandsEndInANextStateOrANamedStop :
    exec .rndc configured = .fault .awaitingEntropy ∧
      exec .rndc (State.setEntropy configured [.ok [1, 2]]) = .fault .entropyAnswerLength ∧
      exec .perm configured = .fault .awaitingPermutation ∧
      exec (.out 0) { State.reset with io := { State.reset.io with hostTakes := false } } = .fault .awaitingHost :=
  ⟨rfl, rfl, rfl, rfl⟩

/-- The first and the last address of the status port beyond its four words. -/
theorem witness_StatusPortShowsTheRegisters : 4 ≤ (4 : BitVec 8).toNat ∧ 4 ≤ (255 : BitVec 8).toNat := by decide

/-- Each clause of RNDC: not configured; K-1 = 1 byte; Fail; no answer. -/
theorem witness_RndcFillsTheCoefficientsOrFaults :
    State.reset.cfgv = false ∧ configured.cfgv = true ∧
      (State.setEntropy configured [.ok [0x53]]).io.entropy = .ok [0x53] :: [] ∧
      ([0x53] : List Byte).length = configured.k.toNat - 1 ∧
      (State.setEntropy configured [.fail]).io.entropy = .fail :: [] ∧ configured.io.entropy = [] := by decide

/-- C[0..2] as in `quadratic` and another C[3]. -/
theorem witness_HornerIgnoresCoefficientsFromKOn :
    2 ≤ quadratic.k.toNat ∧
      (∀ j, j < quadratic.k.toNat → fileAt (quadratic.coef.setIfInBounds 3 0xFF) j = quadratic.coefAt j) := by
  decide +kernel

theorem witness_SharesMayBeEvaluatedInAnyOrder :
    (1 : RegIdx) ≠ 2 ∧ routed.cfgv = true ∧ routed.xv = true ∧ (0 : Byte).toNat < routed.n.toNat ∧
      (2 : Byte).toNat < routed.n.toNat := by decide

/-- The whole-machine obligations about a word: one that completes, and one that faults with a code up to 5. -/
theorem witness_FaultsArePrecise :
    (withEvents .reset [.command 0xE0000000]).Receives 0xE0000000 [] ∧
      ∃ t, step (withEvents .reset [.command 0xE0000000]) = .next t ∧ t.fault = true ∧ t.cause ≠ 0x6 :=
  ⟨witness_receives _, _, rfl, rfl, by decide⟩

theorem witness_FirstFailingCheckIsReported :
    (withEvents .reset [.command 0x80000000]).Receives 0x80000000 [] ∧
      ∃ t, step (withEvents .reset [.command 0x80000000]) = .next t ∧ t.fault = true ∧ t.cause = 0x3 :=
  ⟨witness_receives _, _, rfl, rfl, rfl⟩

/-- RNDC and PERM with an answer, on a configured block: the case of a request on either port. -/
theorem witness_ProviderRequestsAreOnePerRndcAndPerm :
    (withEvents (State.setEntropy configured [.ok [0x53]]) [.command 0x80000000]).Receives 0x80000000 [] ∧
      (∃ t, step (withEvents (State.setEntropy configured [.ok [0x53]]) [.command 0x80000000]) = .next t) ∧
      (withEvents (State.setPermutations configured [.ok [2, 0, 1]]) [.command 0x90000000]).Receives 0x90000000 [] ∧
      ∃ t, step (withEvents (State.setPermutations configured [.ok [2, 0, 1]]) [.command 0x90000000]) = .next t :=
  ⟨⟨rfl, rfl, rfl⟩, ⟨_, rfl⟩, ⟨rfl, rfl, rfl⟩, _, rfl⟩

theorem witness_OnlyOutAppendsToTheOutputStream : ∃ t, step (withEvents .reset [.command 0xD0000000]) = .next t :=
  ⟨_, rfl⟩

theorem witness_CounterIsThePositionInTheStream :
    (withEvents .reset ([0, 0xE0000000].map .command)).fault = false ∧
      (withEvents .reset ([0, 0xE0000000].map .command)).io.resetLine = false ∧
      ∃ t, Host.Core.run core 2 (withEvents .reset ([0, 0xE0000000].map .command)) = .next t := ⟨rfl, rfl, _, rfl⟩

theorem witness_WhoWritesConfigurationAndFiles :
    ∃ t, step (withEvents .reset [.command 0x50000203]) = .next t ∧ t.k = 2 := ⟨_, rfl, rfl⟩

/-- Two states with different secrets in which EVAL completes, the coordinate not 0 in either. -/
theorem witness_LatencyDoesNotDependOnSecrets :
    completes (.eval 6 2) (quadratic.setReg 2 2) = true ∧
      completes (.eval 6 2) ((quadratic.setCoef 0 0x99).setReg 2 3) = true ∧
      ((quadratic.setReg 2 2).reg 2 = 0 ↔ ((quadratic.setCoef 0 0x99).setReg 2 3).reg 2 = 0) := by decide +kernel

theorem witness_LatenciesAreThoseOfTheTable :
    completes .nop .reset = true ∧ ∃ t, exec .perm .reset = .next t ∧ t.fault = true := ⟨by decide, _, rfl, rfl⟩

theorem witness_GmulWritesTheProductAndCompletes :
    State.reset.reg 1 = 0 ∧ State.reset.fault = false ∧ Config.vectorParams.legal = true ∧
      State.reset.rom = Config.vectorParams.rom := ⟨by decide +kernel, rfl, vectorParams_legal, rom_vector⟩

end Sys2Proof.Tests
end

section
/-! SUPPORT. Numbers and words as polynomials over GF(2) (spec 00 R8, spec 10 R34): what the exclusive or, the
shift, the carry-less product and the two remainder loops of the model are in the polynomial ring of the library. -/

namespace Sys2Proof

open Polynomial

/-- The polynomial over GF(2) that a number is written for: its bit j is the coefficient of X^j. -/
noncomputable def bitPoly (v : ℕ) : (ZMod 2)[X] := ∑ j ∈ Finset.range v, if v.testBit j then X ^ j else 0

theorem coeff_ite_X_pow (c : Prop) [Decidable c] (i j : ℕ) :
    (if c then X ^ i else 0 : (ZMod 2)[X]).coeff j = if j = i then (if c then 1 else 0) else 0 := by
  by_cases hc : c <;> simp [hc, coeff_X_pow]

theorem coeff_bitPoly (v j : ℕ) : (bitPoly v).coeff j = if v.testBit j then 1 else 0 := by
  have below (h : v.testBit j = true) : j < v := Nat.lt_two_pow_self.trans_le (Nat.ge_two_pow_of_testBit h)
  simp only [bitPoly, finsetSum_coeff, coeff_ite_X_pow, Finset.sum_ite_eq, Finset.mem_range]
  by_cases h : v.testBit j = true
  · simp [h, below h]
  · simp [h]

theorem bitPoly_injective : Function.Injective bitPoly := by
  intro u v h
  refine Nat.eq_of_testBit_eq fun j => ?_
  have hj := congrArg (coeff · j) h
  simp only [coeff_bitPoly] at hj
  cases hu : u.testBit j <;> cases hv : v.testBit j <;> simp [hu, hv] at hj ⊢

@[simp] theorem bitPoly_zero : bitPoly 0 = 0 := by simp [bitPoly]

@[simp] theorem bitPoly_one : bitPoly 1 = 1 := by simp [bitPoly]

@[simp] theorem bitPoly_eq_zero_iff (v : ℕ) : bitPoly v = 0 ↔ v = 0 :=
  bitPoly_zero ▸ bitPoly_injective.eq_iff

/-- Addition in GF(2)[X] is the exclusive or. -/
theorem bitPoly_xor (u v : ℕ) : bitPoly (u ^^^ v) = bitPoly u + bitPoly v := by
  have two : (1 + 1 : ZMod 2) = 0 := by decide
  ext j
  rw [coeff_add, coeff_bitPoly, coeff_bitPoly, coeff_bitPoly, Nat.testBit_xor]
  cases u.testBit j <;> cases v.testBit j <;> simp [two]

theorem bitPoly_shiftLeft (v i : ℕ) : bitPoly (v <<< i) = bitPoly v * X ^ i := by
  ext j
  rw [coeff_mul_X_pow', coeff_bitPoly, coeff_bitPoly, Nat.testBit_shiftLeft]
  by_cases h : i ≤ j <;> simp [h]

/-- Every polynomial over GF(2) is written as a number. -/
theorem bitPoly_surjective : Function.Surjective bitPoly := by
  intro f
  induction f using Polynomial.induction_on' with
  | add f g hf hg =>
    obtain ⟨u, rfl⟩ := hf
    obtain ⟨v, rfl⟩ := hg
    exact ⟨u ^^^ v, bitPoly_xor u v⟩
  | monomial n c =>
    obtain rfl | rfl : c = 0 ∨ c = 1 := by revert c; decide
    · exact ⟨0, by simp⟩
    · exact ⟨1 <<< n, by simp [bitPoly_shiftLeft, X_pow_eq_monomial]⟩

theorem degree_bitPoly_lt_iff (v n : ℕ) : (bitPoly v).degree < n ↔ v < 2 ^ n := by
  rw [degree_lt_iff_coeff_zero]
  constructor
  · intro h
    refine Nat.lt_pow_two_of_testBit v fun j hj => ?_
    simpa [coeff_bitPoly] using h j hj
  · intro h j hj
    rw [coeff_bitPoly, Nat.testBit_lt_two_pow (h.trans_le (Nat.pow_le_pow_right (by decide) hj))]
    rfl

theorem natDegree_bitPoly {v : ℕ} (h : v ≠ 0) : (bitPoly v).natDegree = v.log2 :=
  eq_of_forall_gt_iff fun n => by
    rw [natDegree_lt_iff_degree_lt (by simpa using h), degree_bitPoly_lt_iff, Nat.log2_lt h]

/-! ### Remainders -/

/-- Subtracting a shifted divisor leaves the residue class. -/
theorem mk_bitPoly_xor_shiftLeft (d v i : ℕ) :
    AdjoinRoot.mk (bitPoly d) (bitPoly (v ^^^ d <<< i)) = AdjoinRoot.mk (bitPoly d) (bitPoly v) := by
  simp [bitPoly_xor, bitPoly_shiftLeft]

/-- A residue below the divisor's degree is 0 only when it is written as 0. -/
theorem mk_bitPoly_eq_zero_iff {d v n : ℕ} (hd : 2 ^ n ≤ d) (hv : v < 2 ^ n) :
    AdjoinRoot.mk (bitPoly d) (bitPoly v) = 0 ↔ v = 0 := by
  rw [AdjoinRoot.mk_eq_zero, ← bitPoly_eq_zero_iff v]
  refine ⟨fun h => eq_zero_of_dvd_of_degree_lt h ?_, fun h => h ▸ dvd_zero _⟩
  have low : (bitPoly v).degree < n := (degree_bitPoly_lt_iff v n).mpr hv
  have high : ¬ (bitPoly d).degree < n := fun h => absurd ((degree_bitPoly_lt_iff d n).mp h) (Nat.not_lt.mpr hd)
  exact low.trans_le (not_lt.mp high)

theorem lt_two_pow_of_not_testBit {v n : ℕ} (hv : v < 2 ^ (n + 1)) (hn : v.testBit n = false) : v < 2 ^ n := by
  refine Nat.lt_pow_two_of_testBit v fun j hj => ?_
  obtain rfl | hlt := Nat.eq_or_lt_of_le hj
  · exact hn
  · exact Nat.testBit_lt_two_pow (hv.trans_le (Nat.pow_le_pow_right (by decide) hlt))

/-- Cancelling the leading term. -/
theorem xor_lt_two_pow_of_testBit {u v n : ℕ} (hu : u < 2 ^ (n + 1)) (hv : v < 2 ^ (n + 1))
    (hun : u.testBit n = true) (hvn : v.testBit n = true) : u ^^^ v < 2 ^ n :=
  lt_two_pow_of_not_testBit (Nat.xor_lt_two_pow hu hv) (by simp [hun, hvn])

theorem shiftLeft_lt_two_pow {v w : ℕ} (hv : v < 2 ^ w) (i : ℕ) : v <<< i < 2 ^ (w + i) := by
  rw [Nat.shiftLeft_eq, Nat.pow_add]
  exact Nat.mul_lt_mul_of_pos_right hv (by positivity)

theorem mk_bitPoly_polyRemFrom (d n v : ℕ) :
    AdjoinRoot.mk (bitPoly d) (bitPoly (polyRemFrom d n v)) = AdjoinRoot.mk (bitPoly d) (bitPoly v) := by
  induction n generalizing v with
  | zero => rfl
  | succ n ih =>
    rw [polyRemFrom, ih]
    split
    · exact mk_bitPoly_xor_shiftLeft d v n
    · rfl

theorem polyRemFrom_lt {d : ℕ} (hd : d ≠ 0) (n : ℕ) {v : ℕ} (hv : v < 2 ^ (d.log2 + n)) :
    polyRemFrom d n v < 2 ^ d.log2 := by
  induction n generalizing v with
  | zero => exact hv
  | succ n ih =>
    refine ih ?_
    split
    next lead =>
      obtain ⟨hv0, hlog⟩ := lead
      have shifted : d <<< n < 2 ^ (d.log2 + n + 1) :=
        Nat.add_right_comm d.log2 1 n ▸ shiftLeft_lt_two_pow Nat.lt_log2_self n
      refine xor_lt_two_pow_of_testBit hv shifted (hlog ▸ Nat.testBit_log2 hv0) ?_
      simp [Nat.testBit_shiftLeft, Nat.testBit_log2 hd]
    next lead =>
      by_contra top
      have hv0 : v ≠ 0 := by rintro rfl; exact top (by positivity)
      exact lead ⟨hv0, (Nat.log2_eq_iff hv0).mpr ⟨Nat.not_lt.mp top, hv⟩⟩

/-- The model's trial division (R8) is divisibility. -/
theorem polyRemFrom_eq_zero_iff {d v n : ℕ} (hd : d ≠ 0) (hv : v < 2 ^ (d.log2 + n)) :
    polyRemFrom d n v = 0 ↔ bitPoly d ∣ bitPoly v := by
  rw [← mk_bitPoly_eq_zero_iff (Nat.log2_self_le hd) (polyRemFrom_lt hd n hv), mk_bitPoly_polyRemFrom,
    AdjoinRoot.mk_eq_zero]

/-! ### The loops on words -/

/-- A word shifted inside 16 bits loses no bit. -/
theorem toNat_setWidth_shiftLeft {w : ℕ} (a : BitVec w) {i : ℕ} (h : w + i ≤ 16) :
    (a.setWidth 16 <<< i).toNat = a.toNat <<< i := by
  have fits : a.toNat <<< i < 2 ^ 16 :=
    (shiftLeft_lt_two_pow a.isLt i).trans_le (Nat.pow_le_pow_right (by decide) h)
  rw [BitVec.toNat_shiftLeft, BitVec.toNat_setWidth_of_le (by omega), Nat.mod_eq_of_lt fits]

theorem toNat_xor_setWidth_shiftLeft (v : BitVec 16) (poly : BitVec 9) {i : ℕ} (h : i < 8) :
    (v ^^^ poly.setWidth 16 <<< i).toNat = v.toNat ^^^ poly.toNat <<< i := by
  rw [BitVec.toNat_xor, toNat_setWidth_shiftLeft poly (by omega)]

theorem mk_bitPoly_polyModFrom (poly : BitVec 9) {n : ℕ} (hn : n ≤ 8) (v : BitVec 16) :
    AdjoinRoot.mk (bitPoly poly.toNat) (bitPoly (polyModFrom poly n v).toNat) =
      AdjoinRoot.mk (bitPoly poly.toNat) (bitPoly v.toNat) := by
  induction n generalizing v with
  | zero => rfl
  | succ n ih =>
    rw [polyModFrom, ih (by omega)]
    split
    · rw [toNat_xor_setWidth_shiftLeft v poly (by omega), mk_bitPoly_xor_shiftLeft]
    · rfl

theorem polyModFrom_lt {poly : BitVec 9} (h8 : poly.getLsbD 8 = true) {n : ℕ} (hn : n ≤ 8) {v : BitVec 16}
    (hv : v.toNat < 2 ^ (8 + n)) : (polyModFrom poly n v).toNat < 2 ^ 8 := by
  induction n generalizing v with
  | zero => exact hv
  | succ n ih =>
    refine ih (by omega) ?_
    split
    next top =>
      have shifted : poly.toNat <<< n < 2 ^ (8 + n + 1) :=
        Nat.add_right_comm 8 1 n ▸ shiftLeft_lt_two_pow poly.isLt n
      rw [toNat_xor_setWidth_shiftLeft v poly (by omega)]
      refine xor_lt_two_pow_of_testBit hv shifted ((BitVec.testBit_toNat v).trans top) ?_
      simpa [Nat.testBit_shiftLeft] using (BitVec.testBit_toNat poly).trans h8
    next top => exact lt_two_pow_of_not_testBit hv ((BitVec.testBit_toNat v).trans (Bool.eq_false_iff.mpr top))

/-- The low n + 1 bits of a number are its low n bits and bit n. -/
theorem bitPoly_mod_two_pow_succ (v n : ℕ) :
    bitPoly (v % 2 ^ (n + 1)) = bitPoly (v % 2 ^ n) + if v.testBit n then X ^ n else 0 := by
  ext j
  rw [coeff_add, coeff_bitPoly, coeff_bitPoly, coeff_ite_X_pow, Nat.testBit_mod_two_pow, Nat.testBit_mod_two_pow]
  obtain h | rfl | h := Nat.lt_trichotomy j n
  · simp [h, h.ne, Nat.lt_succ_of_lt h]
  · simp
  · simp [h.ne', Nat.not_lt.mpr h.le, Nat.not_lt.mpr (Nat.succ_le_of_lt h)]

theorem bitPoly_clmulUpTo (a b : Byte) {n : ℕ} (hn : n ≤ 8) :
    bitPoly (clmulUpTo a b n).toNat = bitPoly a.toNat * bitPoly (b.toNat % 2 ^ n) := by
  induction n with
  | zero => simp [clmulUpTo, Nat.mod_one]
  | succ n ih =>
    rw [clmulUpTo, BitVec.toNat_xor, bitPoly_xor, ih (by omega), bitPoly_mod_two_pow_succ, mul_add,
      BitVec.testBit_toNat]
    congr 1
    split
    · rw [toNat_setWidth_shiftLeft a (by omega), bitPoly_shiftLeft]
    · simp

/-- The carry-less product (R34) is the product of the polynomials. -/
theorem bitPoly_clmul (a b : Byte) : bitPoly (clmul a b).toNat = bitPoly a.toNat * bitPoly b.toNat := by
  rw [clmul, bitPoly_clmulUpTo a b le_rfl, Nat.mod_eq_of_lt b.isLt]

/-! ### The residue of a byte modulo GF_POLY -/

/-- The residue class modulo GF_POLY that a byte stands for. -/
noncomputable def FieldParams.residue (p : FieldParams) (v : Byte) : AdjoinRoot (bitPoly p.poly.toNat) :=
  AdjoinRoot.mk _ (bitPoly v.toNat)

@[simp] theorem FieldParams.residue_zero (p : FieldParams) : p.residue 0#8 = 0 := by simp [FieldParams.residue]

@[simp] theorem FieldParams.residue_one (p : FieldParams) : p.residue 1#8 = 1 := by simp [FieldParams.residue]

theorem FieldParams.residue_xor (p : FieldParams) (a b : Byte) : p.residue (a ^^^ b) = p.residue a + p.residue b := by
  rw [residue, BitVec.toNat_xor, bitPoly_xor, map_add, residue, residue]

section

variable {p : FieldParams} (h8 : p.poly.getLsbD 8 = true)
include h8

/-- A byte is the only one of its residue class. -/
theorem FieldParams.residue_injective : Function.Injective p.residue := by
  intro a b h
  have high : 2 ^ 8 ≤ p.poly.toNat := Nat.ge_two_pow_of_testBit ((BitVec.testBit_toNat p.poly).trans h8)
  have diff : p.residue (a ^^^ b) = 0 := by
    rw [residue_xor, h, residue, ← map_add, CharTwo.add_self_eq_zero, map_zero]
  have zero : a ^^^ b = 0 :=
    BitVec.eq_of_toNat_eq ((mk_bitPoly_eq_zero_iff high (a ^^^ b).isLt).mp diff)
  simpa using zero

/-- `clmul_mod` (R34) multiplies residue classes. -/
theorem FieldParams.residue_mul (a b : Byte) : p.residue (p.mul a b) = p.residue a * p.residue b := by
  have low := polyModFrom_lt h8 le_rfl (clmul a b).isLt
  rw [residue, mul, BitVec.toNat_setWidth, Nat.mod_eq_of_lt low, mk_bitPoly_polyModFrom p.poly le_rfl,
    bitPoly_clmul, map_mul, residue, residue]

theorem FieldParams.residue_pow (a : Byte) (i : ℕ) : p.residue (p.pow a i) = p.residue a ^ i := by
  induction i with
  | zero => simp [FieldParams.pow]
  | succ i ih => rw [FieldParams.pow, residue_mul h8, ih, pow_succ]

theorem FieldParams.pow_one (a : Byte) : p.pow a 1 = a :=
  residue_injective h8 (by simp [residue_pow h8])

end

end Sys2Proof
end

section
/-! SUPPORT. Which parameters are legal (spec 00 R8): the model's trial division decides irreducibility, and its
list of powers the order of the generator. -/

namespace Sys2Proof

open Polynomial Machine

/-! ### The polynomial -/

theorem FieldParams.polyLegal_iff (p : FieldParams) :
    p.polyLegal = true ↔
      p.poly.getLsbD 8 = true ∧ ∀ d, 2 ≤ d → d < 32 → ¬ bitPoly d ∣ bitPoly p.poly.toNat := by
  have divides {d : ℕ} (hd : 2 ≤ d) : polyRemFrom d 8 p.poly.toNat = 0 ↔ bitPoly d ∣ bitPoly p.poly.toNat := by
    have hlog : 1 ≤ d.log2 := (Nat.le_log2 (by omega)).mpr hd
    exact polyRemFrom_eq_zero_iff (by omega) (p.poly.isLt.trans_le (Nat.pow_le_pow_right (by decide) (by omega)))
  simp only [FieldParams.polyLegal, Bool.and_eq_true, List.all_eq_true, List.mem_range, bne_iff_ne]
  refine and_congr_right fun _ => ⟨fun h d h2 h32 => ?_, fun h i hi => ?_⟩
  · obtain ⟨i, rfl⟩ := Nat.exists_eq_add_of_le' h2
    exact mt (divides h2).mpr (h i (by omega))
  · exact mt (divides (by omega)).mp (h (i + 2) (by omega) (by omega))

theorem log2_add_log2_of_bitPoly_mul {a b v : ℕ} (ha : a ≠ 0) (hb : b ≠ 0) (hv : v ≠ 0)
    (h : bitPoly a * bitPoly b = bitPoly v) : a.log2 + b.log2 = v.log2 := by
  rw [← natDegree_bitPoly ha, ← natDegree_bitPoly hb, ← natDegree_bitPoly hv, ← h,
    natDegree_mul (by simpa using ha) (by simpa using hb)]

/-- Of two factors of a polynomial of degree at most 8 one is a divisor that the trial division finds. -/
theorem exists_small_divisor {a b v : ℕ} (ha : 2 ≤ a) (hb : 2 ≤ b) (hv0 : v ≠ 0) (hv : v < 2 ^ 9)
    (h : bitPoly a * bitPoly b = bitPoly v) : ∃ d, 2 ≤ d ∧ d < 32 ∧ bitPoly d ∣ bitPoly v := by
  have hdeg : a.log2 + b.log2 = v.log2 := log2_add_log2_of_bitPoly_mul (by omega) (by omega) hv0 h
  have hv8 : v.log2 < 9 := (Nat.log2_lt hv0).mpr hv
  obtain hsmall | hsmall : a.log2 < 5 ∨ b.log2 < 5 := by omega
  · exact ⟨a, ha, (Nat.log2_lt (by omega)).mp hsmall, Dvd.intro _ h⟩
  · exact ⟨b, hb, (Nat.log2_lt (by omega)).mp hsmall, Dvd.intro_left _ h⟩

/-- A divisor of degree 1 to 4 of a polynomial of degree 8 has a cofactor of degree 4 to 7. -/
theorem exists_byte_cofactor {d v : ℕ} (hd : 2 ≤ d) (hd32 : d < 32) (hv8 : 2 ^ 8 ≤ v) (hv9 : v < 2 ^ 9)
    (h : bitPoly d ∣ bitPoly v) : ∃ q, 2 ≤ q ∧ q < 256 ∧ bitPoly d * bitPoly q = bitPoly v := by
  obtain ⟨f, hf⟩ := h
  obtain ⟨q, rfl⟩ := bitPoly_surjective f
  have hq0 : q ≠ 0 := by
    rintro rfl
    rw [bitPoly_zero, mul_zero, bitPoly_eq_zero_iff] at hf
    omega
  have hdeg : d.log2 + q.log2 = v.log2 := log2_add_log2_of_bitPoly_mul (by omega) hq0 (by omega) hf.symm
  have hv : v.log2 = 8 := (Nat.log2_eq_iff (by omega)).mpr ⟨hv8, hv9⟩
  have hd1 : 1 ≤ d.log2 := (Nat.le_log2 (by omega)).mpr hd
  have hd4 : d.log2 < 5 := (Nat.log2_lt (by omega)).mpr hd32
  exact ⟨q, (Nat.le_log2 (k := 1) hq0).mp (by omega), (Nat.log2_lt (k := 8) hq0).mp (by omega), hf.symm⟩

theorem clmul_eq_setWidth_iff (a b : Byte) (poly : BitVec 9) :
    clmul a b = poly.setWidth 16 ↔ bitPoly a.toNat * bitPoly b.toNat = bitPoly poly.toNat := by
  rw [← bitPoly_clmul, bitPoly_injective.eq_iff, ← BitVec.toNat_inj, BitVec.toNat_setWidth_of_le (by decide)]

/-- The trial division accepts exactly the polynomials of degree 8 that are no product of two of degree 1 or more. -/
theorem FieldParams.polyLegal_iff_no_factors (p : FieldParams) :
    p.polyLegal = true ↔
      p.poly.getLsbD 8 = true ∧ ∀ a b : Byte, 2 ≤ a.toNat → 2 ≤ b.toNat → clmul a b ≠ p.poly.setWidth 16 := by
  rw [FieldParams.polyLegal_iff]
  refine and_congr_right fun h8 => ?_
  have high : 2 ^ 8 ≤ p.poly.toNat := Nat.ge_two_pow_of_testBit ((BitVec.testBit_toNat p.poly).trans h8)
  constructor
  · intro h a b ha hb hab
    obtain ⟨d, hd, hd32, hdvd⟩ :=
      exists_small_divisor ha hb (by omega) p.poly.isLt ((clmul_eq_setWidth_iff a b p.poly).mp hab)
    exact h d hd hd32 hdvd
  · intro h d hd hd32 hdvd
    obtain ⟨q, hq, hq256, hmul⟩ := exists_byte_cofactor hd hd32 high p.poly.isLt hdvd
    have hdt : (BitVec.ofNat 8 d).toNat = d := Nat.mod_eq_of_lt (by omega)
    have hqt : (BitVec.ofNat 8 q).toNat = q := Nat.mod_eq_of_lt hq256
    refine h (BitVec.ofNat 8 d) (BitVec.ofNat 8 q) (hd.trans_eq hdt.symm) (hq.trans_eq hqt.symm)
      ((clmul_eq_setWidth_iff _ _ _).mpr ?_)
    rw [hdt, hqt, hmul]

/-! ### The generator -/

theorem FieldParams.firstOneAfter_iff (p : FieldParams) (count i : ℕ) :
    p.firstOneAfter count (p.pow p.gen i) = true ↔
      p.pow p.gen (i + count) = 1 ∧ ∀ j, i ≤ j → j < i + count → p.pow p.gen j ≠ 1 := by
  induction count generalizing i with
  | zero => simpa [FieldParams.firstOneAfter] using fun _ j hij hji => absurd hji (Nat.not_lt.mpr hij)
  | succ count ih =>
    have next := ih (i + 1)
    rw [FieldParams.pow, Nat.add_right_comm] at next
    rw [FieldParams.firstOneAfter, Bool.and_eq_true, bne_iff_ne, next, ← Nat.add_assoc]
    constructor
    · rintro ⟨first, last, later⟩
      refine ⟨last, fun j hij hj => ?_⟩
      obtain rfl | hlt := Nat.eq_or_lt_of_le hij
      · exact first
      · exact later j hlt hj
    · rintro ⟨last, all⟩
      exact ⟨all i le_rfl (by omega), last, fun j hij hj => all j (by omega) hj⟩

theorem FieldParams.genLegal_iff {p : FieldParams} (h8 : p.poly.getLsbD 8 = true) :
    p.genLegal = true ↔ p.pow p.gen 255 = 1 ∧ ∀ i, 0 < i → i < 255 → p.pow p.gen i ≠ 1 := by
  have start := p.firstOneAfter_iff 254 1
  rw [FieldParams.pow_one h8] at start
  exact start

theorem FieldParams.legal_iff (p : FieldParams) :
    p.legal = true ↔
      p.poly.getLsbD 8 = true ∧
      (∀ a b : Byte, 2 ≤ a.toNat → 2 ≤ b.toNat → clmul a b ≠ p.poly.setWidth 16) ∧
      p.pow p.gen 255 = 1 ∧ ∀ i, 0 < i → i < 255 → p.pow p.gen i ≠ 1 := by
  rw [FieldParams.legal, Bool.and_eq_true, FieldParams.polyLegal_iff_no_factors, and_assoc]
  exact and_congr_right fun h8 => and_congr_right fun _ => FieldParams.genLegal_iff h8

theorem Machine.State.exists_boot_eq_ok_iff (p : FieldParams) : (∃ s, State.boot p = .ok s) ↔ p.legal = true := by
  cases h : p.legal <;> simp [State.boot, h]

/-- Settles O13: `State.boot` tests `FieldParams.legal`, whose trial division and list of powers decide R8. -/
theorem modelStartsExactlyWithLegalParameters : Obligations.ModelStartsExactlyWithLegalParameters := fun p =>
  (State.exists_boot_eq_ok_iff p).trans p.legal_iff

end Sys2Proof
end

section
/-! SUPPORT. The tables of legal parameters and the two table operations (spec 10 R31, R32; spec 40 R103, R106): EXP
and LOG are powers and logarithms of the generator, so gf_mul and gf_div are product and quotient in the field. -/

namespace Sys2Proof

open Machine

/-! ### Tables -/

theorem FieldParams.getElem?_powers (p : FieldParams) {i : ℕ} (hi : i < 255) : p.powers[i]? = some (p.pow p.gen i) :=
  (p.getElem?_powersFrom 255 0 i hi).trans (by rw [Nat.zero_add])

theorem FieldParams.expAt_rom (p : FieldParams) {i : Byte} (hi : i.toNat < 255) :
    p.rom.expAt i = p.pow p.gen i.toNat := by
  simp [Rom.expAt, romAt, FieldParams.rom, p.getElem?_powers hi]

theorem FieldParams.logAt_rom (p : FieldParams) (v : Byte) : p.rom.logAt v = p.logOf v := by
  simp [Rom.logAt, romAt, FieldParams.rom]

section

variable {p : FieldParams} (hp : p.legal = true)
include hp

theorem FieldParams.orderOf_residue_gen : orderOf (p.residue p.gen) = 255 := by
  obtain ⟨h8, -, last, first⟩ := p.legal_iff.mp hp
  have residue_pow_eq_one (i : ℕ) : p.residue p.gen ^ i = 1 ↔ p.pow p.gen i = 1 := by
    rw [← residue_pow h8, ← residue_one, (residue_injective h8).eq_iff]
    rfl
  rw [orderOf_eq_iff (by decide)]
  exact ⟨(residue_pow_eq_one 255).mpr last, fun i hi h0 => mt (residue_pow_eq_one i).mp (first i h0 hi)⟩

theorem FieldParams.residue_gen_pow_255 : p.residue p.gen ^ 255 = 1 :=
  orderOf_residue_gen hp ▸ pow_orderOf_eq_one _

theorem FieldParams.pow_gen_injOn : Set.InjOn (p.pow p.gen) (Finset.range 255) := by
  obtain ⟨h8, -⟩ := p.legal_iff.mp hp
  intro i hi j hj hij
  have inj := pow_injOn_Iio_orderOf (x := p.residue p.gen)
  rw [orderOf_residue_gen hp] at inj
  exact inj (by simpa using hi) (by simpa using hj) (by simp only [← residue_pow h8, hij])

theorem FieldParams.isUnit_residue_gen : IsUnit (p.residue p.gen) :=
  .of_pow_eq_one (residue_gen_pow_255 hp) (by decide)

theorem FieldParams.pow_gen_ne_zero (i : ℕ) : p.pow p.gen i ≠ 0 := by
  obtain ⟨h8, -⟩ := p.legal_iff.mp hp
  intro h
  have unit : IsUnit (p.residue 0#8) := by
    rw [← show p.pow p.gen i = 0#8 from h, residue_pow h8]
    exact (isUnit_residue_gen hp).pow i
  rw [residue_zero, isUnit_zero_iff, ← residue_zero, ← residue_one] at unit
  exact absurd (residue_injective h8 unit) (by decide)

/-- Every nonzero byte is a power of the generator. -/
theorem FieldParams.exists_pow_gen_eq {v : Byte} (hv : v ≠ 0) : ∃ i < 255, p.pow p.gen i = v := by
  have into : Set.MapsTo (p.pow p.gen) (Finset.range 255) (Finset.univ.erase (0 : Byte)) := fun i hi => by
    simpa using pow_gen_ne_zero hp i
  have onto := Finset.surjOn_of_injOn_of_card_le _ into (pow_gen_injOn hp) (by decide +kernel)
  obtain ⟨i, hi, rfl⟩ := onto (by simpa using hv)
  exact ⟨i, by simpa using hi, rfl⟩

/-- LOG of a nonzero byte is its exponent. -/
theorem FieldParams.logAt_rom_spec {v : Byte} (hv : v ≠ 0) :
    (p.rom.logAt v).toNat < 255 ∧ p.pow p.gen (p.rom.logAt v).toNat = v := by
  obtain ⟨i, hi, rfl⟩ := exists_pow_gen_eq hp hv
  have found : p.powers.idxOf (p.pow p.gen i) < p.powers.length :=
    List.idxOf_lt_length_iff.mpr (List.mem_of_getElem? (p.getElem?_powers hi))
  have below : p.powers.idxOf (p.pow p.gen i) < 255 := found.trans_eq (p.length_powersFrom 255 1)
  have hlog : (p.rom.logAt (p.pow p.gen i)).toNat = p.powers.idxOf (p.pow p.gen i) := by
    rw [p.logAt_rom, FieldParams.logOf, if_neg hv, BitVec.toNat_ofNat, Nat.mod_eq_of_lt (by omega)]
  have back := p.getElem?_powers below
  rw [List.getElem?_eq_getElem found, List.getElem_idxOf found, Option.some_inj] at back
  exact ⟨hlog ▸ below, hlog.symm ▸ back.symm⟩

/-- The residue of a nonzero byte, by its LOG entry. -/
theorem FieldParams.residue_eq_gen_pow_log {v : Byte} (hv : v ≠ 0) :
    p.residue v = p.residue p.gen ^ (p.rom.logAt v).toNat := by
  obtain ⟨h8, -⟩ := p.legal_iff.mp hp
  rw [← residue_pow h8, (logAt_rom_spec hp hv).2]

theorem FieldParams.isUnit_residue {v : Byte} (hv : v ≠ 0) : IsUnit (p.residue v) := by
  rw [residue_eq_gen_pow_log hp hv]
  exact (isUnit_residue_gen hp).pow _

/-- The residue of an EXP entry, at an index taken mod 255. -/
theorem FieldParams.residue_expAt_of_toNat_eq_mod {i : Byte} {n : ℕ} (hi : i.toNat = n % 255) :
    p.residue (p.rom.expAt i) = p.residue p.gen ^ n := by
  obtain ⟨h8, -⟩ := p.legal_iff.mp hp
  rw [p.expAt_rom (by omega), residue_pow h8, hi, ← orderOf_residue_gen hp, pow_mod_orderOf]

end

/-! ### The datapath -/

/-- `ct_is_zero` (R109 a) is the test for 0. -/
theorem ctIsZero_eq (v : Byte) : ctIsZero v = BitVec.ofBool (v == 0) := by
  revert v; decide +kernel

theorem and_not_mask8_one (v : Byte) : v &&& ~~~(mask8 1) = 0 := by simp [mask8]

theorem and_not_mask8_zero (v : Byte) : v &&& ~~~(mask8 0) = v := by
  rw [show ~~~(mask8 0) = BitVec.allOnes 8 by decide, BitVec.and_allOnes]

theorem gfMul_of_zero (t : Rom) {a b : Byte} (h : a = 0 ∨ b = 0) : gfMul t a b = 0 := by
  have masked : ctIsZero a ||| ctIsZero b = 1 := by
    rw [ctIsZero_eq, ctIsZero_eq]
    obtain rfl | rfl := h
    · cases b == 0 <;> rfl
    · cases a == 0 <;> rfl
  rw [gfMul, masked, and_not_mask8_one]

theorem gfMul_of_ne (t : Rom) {a b : Byte} (ha : a ≠ 0) (hb : b ≠ 0) :
    gfMul t a b = t.expAt ((foldSum (t.logAt a) (t.logAt b)).setWidth 8) := by
  have unmasked : ctIsZero a ||| ctIsZero b = 0 := by
    rw [ctIsZero_eq, ctIsZero_eq, beq_false_of_ne ha, beq_false_of_ne hb]
    rfl
  rw [gfMul, unmasked, and_not_mask8_zero]

theorem gfDiv_zero_left (t : Rom) (b : Byte) : gfDiv t 0 b = 0 := and_not_mask8_one _

theorem gfDiv_of_ne (t : Rom) {a : Byte} (b : Byte) (ha : a ≠ 0) :
    gfDiv t a b = t.expAt ((wrapDiff (t.logAt a) (t.logAt b)).setWidth 8) := by
  have unmasked : ctIsZero a = 0 := by
    rw [ctIsZero_eq, beq_false_of_ne ha]
    rfl
  rw [gfDiv, unmasked, and_not_mask8_zero]

/-- The folded sum (R103) is the sum mod 255. -/
theorem toNat_foldSum {la lb : Byte} (ha : la.toNat < 255) (hb : lb.toNat < 255) :
    (foldSum la lb).toNat = (la.toNat + lb.toNat) % 255 := by
  have hsum : (la.setWidth 9 + lb.setWidth 9).toNat = la.toNat + lb.toNat := by
    rw [BitVec.toNat_add, BitVec.toNat_setWidth_of_le (by decide), BitVec.toNat_setWidth_of_le (by decide),
      Nat.mod_eq_of_lt (by omega)]
  by_cases h : 255 ≤ la.toNat + lb.toNat
  · have folded : foldSum la lb = la.setWidth 9 + lb.setWidth 9 - 255 := by
      rw [foldSum, hsum, decide_eq_true h]
      rfl
    rw [folded, BitVec.toNat_sub, hsum, show (255 : BitVec 9).toNat = 255 from rfl]
    omega
  · have kept : foldSum la lb = la.setWidth 9 + lb.setWidth 9 - 0#9 := by
      rw [foldSum, hsum, decide_eq_false h]
      rfl
    rw [kept, BitVec.sub_zero, hsum, Nat.mod_eq_of_lt (by omega)]

/-- The wrapped difference (R106) is the difference mod 255. -/
theorem toNat_wrapDiff {la lb : Byte} (ha : la.toNat < 255) (hb : lb.toNat < 255) :
    (wrapDiff la lb).toNat = (la.toNat + (255 - lb.toNat)) % 255 := by
  have hdiff : (la.setWidth 9 - lb.setWidth 9).toNat = (512 - lb.toNat + la.toNat) % 512 := by
    rw [BitVec.toNat_sub, BitVec.toNat_setWidth_of_le (by decide), BitVec.toNat_setWidth_of_le (by decide)]
  have sign : (la.setWidth 9 - lb.setWidth 9).extractLsb' 8 1 = BitVec.ofBool (decide (la.toNat < lb.toNat)) := by
    refine BitVec.eq_of_toNat_eq ?_
    rw [BitVec.extractLsb'_toNat, hdiff, Nat.shiftRight_eq_div_pow, BitVec.toNat_ofBool]
    by_cases h : la.toNat < lb.toNat
    · rw [decide_eq_true h, Bool.toNat_true]
      omega
    · rw [decide_eq_false h, Bool.toNat_false]
      omega
  by_cases h : la.toNat < lb.toNat
  · have wrapped : wrapDiff la lb = la.setWidth 9 - lb.setWidth 9 + 255 := by
      rw [wrapDiff, sign, decide_eq_true h]
      rfl
    rw [wrapped, BitVec.toNat_add, hdiff, show (255 : BitVec 9).toNat = 255 from rfl]
    omega
  · have kept : wrapDiff la lb = la.setWidth 9 - lb.setWidth 9 + 0#9 := by
      rw [wrapDiff, sign, decide_eq_false h]
      rfl
    rw [kept, BitVec.add_zero, hdiff]
    omega

section

variable {p : FieldParams} (hp : p.legal = true)
include hp

/-- gf_mul on the tables of legal parameters is the field product (R103, R108). -/
theorem FieldParams.gfMul_rom (a b : Byte) : gfMul p.rom a b = p.mul a b := by
  obtain ⟨h8, -⟩ := p.legal_iff.mp hp
  refine residue_injective h8 ?_
  rw [residue_mul h8]
  by_cases hzero : a = 0 ∨ b = 0
  · rw [gfMul_of_zero _ hzero]
    obtain rfl | rfl := hzero <;> simp
  · obtain ⟨ha, hb⟩ := not_or.mp hzero
    have index : ((foldSum (p.rom.logAt a) (p.rom.logAt b)).setWidth 8).toNat =
        ((p.rom.logAt a).toNat + (p.rom.logAt b).toNat) % 255 := by
      rw [BitVec.toNat_setWidth, toNat_foldSum (logAt_rom_spec hp ha).1 (logAt_rom_spec hp hb).1]
      omega
    rw [gfMul_of_ne _ ha hb, residue_expAt_of_toNat_eq_mod hp index, pow_add, ← residue_eq_gen_pow_log hp ha,
      ← residue_eq_gen_pow_log hp hb]

/-- gf_div on the tables of legal parameters undoes the field product (R106, R108). -/
theorem FieldParams.mul_gfDiv_rom (a : Byte) {b : Byte} (hb : b ≠ 0) : p.mul (gfDiv p.rom a b) b = a := by
  obtain ⟨h8, -⟩ := p.legal_iff.mp hp
  refine residue_injective h8 ?_
  rw [residue_mul h8]
  by_cases ha : a = 0
  · rw [ha, gfDiv_zero_left]
    simp
  · have logb := (logAt_rom_spec hp hb).1
    have index : ((wrapDiff (p.rom.logAt a) (p.rom.logAt b)).setWidth 8).toNat =
        ((p.rom.logAt a).toNat + (255 - (p.rom.logAt b).toNat)) % 255 := by
      rw [BitVec.toNat_setWidth, toNat_wrapDiff (logAt_rom_spec hp ha).1 logb]
      omega
    calc p.residue (gfDiv p.rom a b) * p.residue b
        = p.residue p.gen ^ ((p.rom.logAt a).toNat + (255 - (p.rom.logAt b).toNat)) * p.residue b := by
          rw [gfDiv_of_ne _ _ ha, residue_expAt_of_toNat_eq_mod hp index]
      _ = p.residue p.gen ^ ((p.rom.logAt a).toNat + 255) := by
          rw [residue_eq_gen_pow_log hp hb, ← pow_add, Nat.add_assoc, Nat.sub_add_cancel logb.le]
      _ = p.residue a := by
          rw [pow_add, residue_gen_pow_255 hp, mul_one, ← residue_eq_gen_pow_log hp ha]

/-- A nonzero factor can be cancelled. -/
theorem FieldParams.mul_right_cancel {x y b : Byte} (hb : b ≠ 0) (h : p.mul x b = p.mul y b) : x = y := by
  obtain ⟨h8, -⟩ := p.legal_iff.mp hp
  have residues := congrArg p.residue h
  rw [residue_mul h8, residue_mul h8] at residues
  exact residue_injective h8 ((isUnit_residue hp hb).mul_right_cancel residues)

end

end Sys2Proof
end

section
/-! SUPPORT. Another ROM with the same products and quotients shows in no result of a step (spec 00 R9): the ROM is
read by gf_mul and gf_div only, and nothing writes it. -/

namespace Sys2Proof.Machine

/-- Two ROMs on which gf_mul, and gf_div by a divisor that is not 0, have the same results. -/
structure Rom.SameResults (t u : Rom) : Prop where
  mul : ∀ a b, gfMul u a b = gfMul t a b
  div : ∀ a b, b ≠ 0 → gfDiv u a b = gfDiv t a b

/-! ### The checks and the requests read no table

The state's tables stand in no condition, so a change of them moves into the branches of each test. -/

theorem ite_eq_mapNext {f : State → State} {c : Prop} {_ : Decidable c} {x y x' y' : Result}
    (hx : x' = mapNext f x) (hy : y' = mapNext f y) : (if c then x' else y') = mapNext f (if c then x else y) := by
  rw [hx, hy, apply_ite (mapNext f)]

theorem State.requireConfig_withRom (s : State) (u : Rom) (cmd : CmdWord) (go : Result) :
    (s.withRom u).requireConfig cmd (mapNext (·.withRom u) go) = mapNext (·.withRom u) (s.requireConfig cmd go) :=
  ite_eq_mapNext rfl rfl

theorem State.requireCoords_withRom (s : State) (u : Rom) (cmd : CmdWord) (go : Result) :
    (s.withRom u).requireCoords cmd (mapNext (·.withRom u) go) = mapNext (·.withRom u) (s.requireCoords cmd go) :=
  ite_eq_mapNext rfl rfl

theorem State.requireCoordIndex_withRom (s : State) (u : Rom) (cmd : CmdWord) (idx : Byte) (go : Result) :
    (s.withRom u).requireCoordIndex cmd idx (mapNext (·.withRom u) go) =
      mapNext (·.withRom u) (s.requireCoordIndex cmd idx go) :=
  ite_eq_mapNext rfl rfl

theorem State.takePermutation_withRom (s : State) (u : Rom) (a : Answer) :
    (s.withRom u).takePermutation a = mapNext (·.withRom u) (s.takePermutation a) := by
  cases a with
  | fail => rfl
  | ok p => exact ite_eq_mapNext rfl rfl

theorem State.takeCoefficients_withRom (s : State) (u : Rom) (a : Answer) :
    (s.withRom u).takeCoefficients a = mapNext (·.withRom u) (s.takeCoefficients a) := by
  cases a with
  | fail => rfl
  | ok bs => exact ite_eq_mapNext rfl rfl

theorem execPerm_withRom (s : State) (u : Rom) : execPerm (s.withRom u) = mapNext (·.withRom u) (execPerm s) := by
  rw [execPerm, execPerm, ← State.requireConfig_withRom]
  congr 1
  simp only [State.requestPermutation, State.withRom_io]
  cases s.io.permutations with
  | nil => rfl
  | cons a rest => exact (s.setPermutations rest).takePermutation_withRom u a

theorem execRndc_withRom (s : State) (u : Rom) : execRndc (s.withRom u) = mapNext (·.withRom u) (execRndc s) := by
  rw [execRndc, execRndc, ← State.requireConfig_withRom]
  congr 1
  simp only [State.requestEntropy, State.withRom_io]
  cases s.io.entropy with
  | nil => rfl
  | cons a rest => exact (s.setEntropy rest).takeCoefficients_withRom u a

theorem execCfg_withRom (s : State) (u : Rom) (k n : Byte) :
    execCfg k n (s.withRom u) = mapNext (·.withRom u) (execCfg k n s) :=
  ite_eq_mapNext rfl rfl

theorem execOut_withRom (s : State) (u : Rom) (rs1 : RegIdx) :
    execOut rs1 (s.withRom u) = mapNext (·.withRom u) (execOut rs1 s) :=
  ite_eq_mapNext rfl rfl

/-- A register command whose value is the same under both ROMs. -/
theorem next_setReg_tick_withRom (s : State) (u : Rom) (rd : RegIdx) {v w : Byte} (h : v = w) :
    (.next ((s.withRom u).setReg rd v).tick : Result) = mapNext (·.withRom u) (.next (s.setReg rd w).tick) :=
  h ▸ rfl

/-! ### The commands that read the tables -/

section

variable {s : State} {u : Rom} (h : s.rom.SameResults u)
include h

theorem Rom.SameResults.execGdiv (rd rs1 rs2 : RegIdx) :
    Machine.execGdiv rd rs1 rs2 (s.withRom u) = mapNext (·.withRom u) (Machine.execGdiv rd rs1 rs2 s) := by
  rw [Machine.execGdiv, Machine.execGdiv, State.withRom_reg, State.withRom_reg]
  by_cases hb : s.reg rs2 = 0
  · rw [hb, State.requireDivisor_of_zero, State.requireDivisor_of_zero]
    rfl
  · rw [State.requireDivisor_of_ne _ _ hb, State.requireDivisor_of_ne _ _ hb]
    exact next_setReg_tick_withRom s u rd (h.div _ _ hb)

theorem Rom.SameResults.hornerFold (x : Byte) (j : ℕ) (v : Byte) :
    Machine.hornerFold u s.coef x j v = Machine.hornerFold s.rom s.coef x j v := by
  induction j generalizing v with
  | zero => rfl
  | succ j ih => rw [Machine.hornerFold, Machine.hornerFold, h.mul, ih]

theorem Rom.SameResults.horner (x : Byte) : (s.withRom u).horner x = s.horner x := by
  unfold State.horner
  split
  · rfl
  · exact h.hornerFold x _ _

theorem Rom.SameResults.exec (i : Instr) :
    Machine.exec i (s.withRom u) = mapNext (·.withRom u) (Machine.exec i s) := by
  cases i with
  | nop => rfl
  | gadd rd rs1 rs2 => rfl
  | gmul rd rs1 rs2 => exact next_setReg_tick_withRom s u rd (h.mul _ _)
  | gdiv rd rs1 rs2 => exact h.execGdiv rd rs1 rs2
  | ldi rd imm => rfl
  | cfg k n => exact execCfg_withRom s u k n
  | wrc rs1 idx => exact ite_eq_mapNext rfl rfl
  | rdc rd idx => exact ite_eq_mapNext rfl rfl
  | rndc => exact execRndc_withRom s u
  | perm => exact execPerm_withRom s u
  | rdx rd idx =>
    rw [Machine.exec, Machine.exec, execRdx, execRdx, ← s.requireConfig_withRom, ← s.requireCoords_withRom,
      ← s.requireCoordIndex_withRom]
    rfl
  | eval rd rs1 =>
    rw [Machine.exec, Machine.exec, execEval, execEval, ← s.requireConfig_withRom,
      ← next_setReg_tick_withRom s u rd (h.horner _)]
    rfl
  | evalp rd idx =>
    rw [Machine.exec, Machine.exec, execEvalp, execEvalp, ← s.requireConfig_withRom, ← s.requireCoords_withRom,
      ← s.requireCoordIndex_withRom, ← next_setReg_tick_withRom s u rd (h.horner _)]
    rfl
  | out rs1 => exact execOut_withRom s u rs1

theorem Rom.SameResults.acceptWord (w : CmdWord) :
    Machine.acceptWord w (s.withRom u) = mapNext (·.withRom u) (Machine.acceptWord w s) := by
  refine ite_eq_mapNext rfl ?_
  cases decode w with
  | error e => rfl
  | ok i => exact h.exec i

/-- A step under a ROM with the same results is the same step, but for the ROM. -/
theorem Rom.SameResults.step : Machine.step (s.withRom u) = mapNext (·.withRom u) (Machine.step s) := by
  simp only [Machine.step, deliverNext, State.withRom_io]
  cases s.io.events with
  | nil => rfl
  | cons e es =>
    have dropped : s.dropEvent.rom.SameResults u := h
    cases e with
    | command w => exact ite_eq_mapNext rfl (dropped.acceptWord w)
    | resetAssert => rfl
    | resetDuring w => rfl
    | resetRelease => exact ite_eq_mapNext rfl rfl

end

end Sys2Proof.Machine

namespace Sys2Proof

open Machine

theorem FieldParams.mul_congr {p q : FieldParams} (hpoly : p.poly = q.poly) (a b : Byte) : p.mul a b = q.mul a b := by
  rw [FieldParams.mul, FieldParams.mul, hpoly]

/-- The ROMs of two legal generators of one GF_POLY multiply and divide alike. -/
theorem FieldParams.rom_sameResults {p q : FieldParams} (hp : p.legal = true) (hq : q.legal = true)
    (hpoly : p.poly = q.poly) : p.rom.SameResults q.rom where
  mul a b := by rw [gfMul_rom hp, gfMul_rom hq, mul_congr hpoly]
  div a b hb := by
    refine mul_right_cancel hp hb ?_
    rw [mul_gfDiv_rom hp a hb, mul_congr hpoly, mul_gfDiv_rom hq a hb]

/-- Settles O22: the tables are read by gf_mul and gf_div only, which are product and quotient of the field. -/
theorem generatorShowsInNoResult : Obligations.GeneratorShowsInNoResult := by
  intro p q s hp hq hpoly hrom
  have same : s.rom.SameResults q.rom := by
    rw [hrom]
    exact FieldParams.rom_sameResults hp hq hpoly
  exact same.step

end Sys2Proof
end

section
/-! SUPPORT. What a command or a step that has a next state did, and the invariant that every step keeps (spec 10 R26,
R27, R29, R33, R38; spec 60 R200; spec 70 R230). -/

namespace Sys2Proof.Machine

/-- The next states of a command, by what they differ in from the state it starts in: `exec_cases` without the
stops. -/
inductive ExecNext (i : Instr) (s : State) : State → Prop
  | raised (c : FaultCause) : ExecNext i s (s.raise c (encode i))
  | entropyFailed (rest : List Answer) : ExecNext i s ((s.setEntropy rest).raise .entropy (encode i))
  | permutationFailed (rest : List Answer) : ExecNext i s ((s.setPermutations rest).raise .entropy (encode i))
  | counted : ExecNext i s s.tick
  | regWritten (rd : RegIdx) (v : Byte) : ExecNext i s (s.setReg rd v).tick
  | configured (k n : Byte) (hi : i = .cfg k n) (h2 : 2 ≤ k.toNat) (hkn : k.toNat ≤ n.toNat) :
      ExecNext i s (s.configure k n).tick
  | coefWritten (rs1 : RegIdx) (idx : Byte) (hi : i = .wrc rs1 idx) :
      ExecNext i s (s.setCoef idx.toNat (s.reg rs1)).tick
  | emitted (rs1 : RegIdx) (hi : i = .out rs1) : ExecNext i s (s.emit (s.reg rs1)).tick
  | coefsDrawn (rest : List Answer) (bs : List Byte) (hi : i = .rndc) :
      ExecNext i s ((s.setEntropy rest).setCoefRun 1 bs).tick
  | coordsLoaded (rest : List Answer) (bs : List Byte) (hi : i = .perm) (hc : s.cfgv = true)
      (hp : isPerm bs s.n.toNat = true) :
      ExecNext i s ((s.setPermutations rest).loadCoords bs).tick

theorem execNext_of_exec {i : Instr} {s t : State} (h : exec i s = .next t) : ExecNext i s t := by
  obtain ⟨c, e, -⟩ | ⟨rd, v, e, -⟩ | ⟨-, e⟩ | ⟨k, n, hi, h2, hkn, e⟩ | ⟨rs1, idx, hi, e⟩ | ⟨rs1, hi, -, e⟩ |
    ⟨_, _, _, e⟩ | ⟨_, _, _, e⟩ | ⟨_, _, _, e⟩ | ⟨hi, -, a, rest, -, e⟩ | ⟨hi, -, bs, rest, -, -, e⟩ |
    ⟨_, _, _, _, _, _, e⟩ | ⟨hi, -, a, rest, -, e⟩ | ⟨hi, hc, bs, rest, -, hp, e⟩ := exec_cases i s
  all_goals cases e.symm.trans h
  · exact .raised c
  · exact .regWritten rd v
  · exact .counted
  · exact .configured k n hi h2 hkn
  · exact .coefWritten rs1 idx hi
  · exact .emitted rs1 hi
  · exact hi ▸ .entropyFailed rest
  · exact .coefsDrawn rest bs hi
  · exact hi ▸ .permutationFailed rest
  · exact .coordsLoaded rest bs hi hc hp

/-! ### The step -/

/-- What a delivered word did, in a step that has a next state: nothing, because the block is in RESET or halted, or
the fault of an illegal word, or a command. -/
theorem stepWord_cases {s t : State} {w : CmdWord} {es : List HostEvent} (he : s.io.events = .command w :: es)
    (h : step s = .next t) :
    ((s.io.resetLine = true ∨ s.fault = true) ∧ t = s.dropEvent) ∨
    (s.Receives w es ∧ t = s.dropEvent.raise .illegal w) ∨
    (s.Receives w es ∧ ∃ i, decode w = .ok i ∧ ExecNext i s.dropEvent t) := by
  rw [step, deliverNext, he] at h
  cases released : s.io.resetLine with
  | true => exact .inl ⟨.inl rfl, by simpa [deliver, released] using h.symm⟩
  | false =>
    replace h : acceptWord w s.dropEvent = .next t := by simpa [deliver, released] using h
    obtain ⟨hf, e⟩ | ⟨hf, -, e⟩ | ⟨hf, i, hi, e⟩ := acceptWord_cases w s.dropEvent
    · cases e.symm.trans h
      exact .inl ⟨.inr hf, rfl⟩
    · cases e.symm.trans h
      exact .inr (.inl ⟨⟨he, released, hf⟩, rfl⟩)
    · exact .inr (.inr ⟨⟨he, released, hf⟩, i, hi, execNext_of_exec (e ▸ h)⟩)

/-- A step is idle, or RESET is asserted or released, or a release changes nothing, or a word is delivered. -/
theorem stepNext_cases {s t : State} (h : step s = .next t) :
    t = s ∨ t = s.dropEvent ∨
    (∃ e es level, s.io.events = e :: es ∧ (e.assertsReset = true ∨ e = .resetRelease ∧ s.io.resetLine = true) ∧
      t = s.dropEvent.applyReset.setResetLine level) ∨
    ∃ w es, s.io.events = .command w :: es := by
  have reached {r : State} (e : step s = .next r) : t = r := Host.Outcome.next.inj (h.symm.trans e)
  obtain ⟨-, e⟩ | ⟨ev, es, he, hr, e⟩ | ⟨es, he, hr, e⟩ | ⟨_, -, -, e⟩ | ⟨w, es, he, -⟩ | ⟨w, es, he, -⟩ :=
    step_cases s
  · exact .inl (reached e)
  · exact .inr (.inr (.inl ⟨ev, es, true, he, .inl hr, reached e⟩))
  · exact .inr (.inr (.inl ⟨_, es, false, he, .inr ⟨rfl, hr⟩, reached e⟩))
  · exact .inr (.inl (reached e))
  · exact .inr (.inr (.inr ⟨w, es, he⟩))
  · exact .inr (.inr (.inr ⟨w, es, he⟩))

/-! ### The invariant under each update -/

/-- After PERM the coordinates in use are its answer. -/
theorem State.coordList_loadCoords (s : State) {bs : List Byte} (h : bs.length = s.n.toNat) :
    (s.loadCoords bs).coordList = bs := by
  have fits : bs.length ≤ 255 := by have := s.n.isLt; omega
  refine List.ext_getElem (by simp [State.coordList, h]) fun j _ hj => ?_
  simp [State.coordList, s.coordAt_loadCoords bs fits, hj]

/-- What `Inv` speaks of in a block whose RESET is released. -/
def State.invFields (s : State) : Rom × Byte × Byte × Bool × Bool × List Byte × Bool × BitVec 4 × CmdWord :=
  (s.rom, s.k, s.n, s.cfgv, s.xv, s.coordList, s.fault, s.cause, s.fcmd)

section

variable {p : FieldParams} {s t : State}

theorem Inv.of_invFields_eq (hs : Inv p s) (released : t.io.resetLine = false) (h : t.invFields = s.invFields) :
    Inv p t := by
  simp only [State.invFields, Prod.mk.injEq] at h
  obtain ⟨rom, k, n, cfgv, xv, coords, fault, cause, fcmd⟩ := h
  refine ⟨rom ▸ hs.rom, ?_, ?_, ?_, ?_, ?_, fun h => absurd h (by simp [released])⟩
  · rw [cfgv, k, n]; exact hs.configured
  · rw [cfgv, k, n]; exact hs.unconfigured
  · rw [xv, cfgv, coords, n]; exact hs.coords
  · rw [fault, cause, fcmd]; exact hs.no_record
  · rw [fault, cause]; exact hs.record

theorem Inv.dropEvent (hs : Inv p s) : Inv p s.dropEvent :=
  ⟨hs.rom, hs.configured, hs.unconfigured, hs.coords, hs.no_record, hs.record, fun h =>
    have r := hs.in_reset h
    ⟨r.regs, r.coef, r.coord, r.k, r.n, r.cfgv, r.xv, r.fault, r.cause, r.fcmd, r.cc, r.outq⟩⟩

theorem Inv.applyReset (hs : Inv p s) (level : Bool) : Inv p (s.applyReset.setResetLine level) where
  rom := hs.rom
  configured := nofun
  unconfigured _ := ⟨rfl, rfl⟩
  coords := nofun
  no_record _ := ⟨rfl, rfl⟩
  record := nofun
  in_reset _ := s.atReset_applyReset.setResetLine level

variable (hs : Inv p s) (released : s.io.resetLine = false)
include hs released

theorem Inv.raise (c : FaultCause) (cmd : CmdWord) : Inv p (s.raise c cmd) where
  rom := hs.rom
  configured := hs.configured
  unconfigured := hs.unconfigured
  coords := hs.coords
  no_record := nofun
  record _ := c.code_range
  in_reset h := absurd (released.symm.trans h) nofun

theorem Inv.configure {k n : Byte} (h2 : 2 ≤ k.toNat) (hkn : k.toNat ≤ n.toNat) : Inv p (s.configure k n) where
  rom := hs.rom
  configured _ := ⟨h2, hkn⟩
  unconfigured := nofun
  coords := nofun
  no_record := hs.no_record
  record := hs.record
  in_reset h := absurd (released.symm.trans h) nofun

theorem Inv.loadCoords {bs : List Byte} (hc : s.cfgv = true) (hp : isPerm bs s.n.toNat = true) :
    Inv p (s.loadCoords bs) where
  rom := hs.rom
  configured := hs.configured
  unconfigured := hs.unconfigured
  coords _ := ⟨hc, by rwa [s.coordList_loadCoords ((isPerm_iff bs _).mp hp).1, s.loadCoords_n]⟩
  no_record := hs.no_record
  record := hs.record
  in_reset h := absurd (released.symm.trans h) nofun

/-- No command breaks the invariant. -/
theorem Inv.execNext {i : Instr} (h : ExecNext i s t) : Inv p t := by
  cases h with
  | raised c => exact hs.raise released c _
  | entropyFailed rest =>
    exact (hs.of_invFields_eq (t := s.setEntropy rest) released rfl).raise released _ _
  | permutationFailed rest =>
    exact (hs.of_invFields_eq (t := s.setPermutations rest) released rfl).raise released _ _
  | counted => exact hs.of_invFields_eq released rfl
  | regWritten rd v => exact hs.of_invFields_eq released rfl
  | configured k n _ h2 hkn => exact (hs.configure released h2 hkn).of_invFields_eq released rfl
  | coefWritten rs1 idx => exact hs.of_invFields_eq released rfl
  | emitted rs1 => exact hs.of_invFields_eq released rfl
  | coefsDrawn rest bs => exact hs.of_invFields_eq released rfl
  | coordsLoaded rest bs _ hc hp =>
    have answered : Inv p (s.setPermutations rest) := hs.of_invFields_eq released rfl
    exact (answered.loadCoords released hc hp).of_invFields_eq released rfl

end

/-- Settles O49, by the cases of the step and of a delivered word. -/
theorem everyStepKeepsTheInvariant : Obligations.EveryStepKeepsTheInvariant := by
  intro p s t hs h
  obtain rfl | rfl | ⟨_, _, level, -, -, rfl⟩ | ⟨w, es, he⟩ := stepNext_cases h
  · exact hs
  · exact hs.dropEvent
  · exact hs.dropEvent.applyReset level
  · obtain ⟨-, rfl⟩ | ⟨hw, rfl⟩ | ⟨hw, i, -, hx⟩ := stepWord_cases he h
    · exact hs.dropEvent
    · exact hs.dropEvent.raise hw.released _ _
    · exact hs.dropEvent.execNext hw.released hx

end Sys2Proof.Machine
end

section
/-! SUPPORT. A word is the encoding of the command it decodes to (spec 30 R72, R76): the opcode's pattern with the
operand fields in the places the mask leaves free. -/

namespace Sys2Proof

theorem placeField_extractLsb' (w : CmdWord) (lo len : ℕ) :
    placeField (w.extractLsb' lo len) lo = w &&& (BitVec.allOnes len).setWidth 32 <<< lo := by
  ext j hj
  simp only [placeField, BitVec.getElem_shiftLeft, BitVec.getElem_and, BitVec.getElem_setWidth,
    BitVec.getLsbD_extractLsb', BitVec.getLsbD_allOnes]
  by_cases low : j < lo
  · simp [low]
  · rw [Nat.add_sub_cancel' (Nat.not_lt.mp low), BitVec.getLsbD_eq_getElem hj]
    simp [low, Bool.and_comm]

/-- The command built from a word is encoded with the word's own operand bits. -/
theorem encode_build (op : Op) (w : CmdWord) : encode (op.build w) = op.pattern ||| w &&& ~~~op.mask := by
  cases op
  all_goals
    simp only [Op.build, encode, rdField, rs1Field, rs2Field, immField, imm2Field, placeField_extractLsb',
      BitVec.or_assoc, ← BitVec.and_or_distrib_left]
  case nop | rndc | perm => simp [placeField, Op.pattern, Op.mask]
  all_goals rfl

theorem encode_of_decode_eq_ok {w : CmdWord} {i : Instr} (h : decode w = .ok i) : encode i = w := by
  obtain ⟨op, -, fixed, rfl⟩ := (decode_eq_ok_iff w i).mp h
  have cover : op.mask ||| ~~~op.mask = BitVec.allOnes 32 := by cases op <;> rfl
  rw [encode_build, ← fixed, ← BitVec.and_or_distrib_left, cover, BitVec.and_allOnes]

end Sys2Proof
end

section
/-! SUPPORT. How a command ends (spec 70 R236, R237), who writes the output stream, the configuration and the files
(spec 10 R27, R28, R33, R36 to R39), and what the counter counts (R25, spec 60 R202). -/

namespace Sys2Proof.Machine

/-- Settles O48: the stops among the cases of `exec_cases`. -/
theorem commandsEndInANextStateOrANamedStop : Obligations.CommandsEndInANextStateOrANamedStop := by
  intro i s
  obtain ⟨_, e, -⟩ | ⟨_, _, e, -⟩ | ⟨-, e⟩ | ⟨_, _, -, -, -, e⟩ | ⟨_, _, -, e⟩ | ⟨_, -, -, e⟩ |
    ⟨rs1, hi, hh, e⟩ | ⟨hi, hc, ha, e⟩ | ⟨hi, hc, ha, e⟩ | ⟨-, -, _, _, -, e⟩ | ⟨-, -, _, _, -, -, e⟩ |
    ⟨hi, hc, bs, rest, ha, hb, e⟩ | ⟨-, -, _, _, -, e⟩ | ⟨-, -, _, _, -, -, e⟩ := exec_cases i s
  · exact .inl ⟨_, e⟩
  · exact .inl ⟨_, e⟩
  · exact .inl ⟨_, e⟩
  · exact .inl ⟨_, e⟩
  · exact .inl ⟨_, e⟩
  · exact .inl ⟨_, e⟩
  · exact .inr (.inr (.inr (.inr ⟨⟨rs1, hi⟩, hh, e⟩)))
  · exact .inr (.inl ⟨hi, hc, ha, e⟩)
  · exact .inr (.inr (.inr (.inl ⟨hi, hc, ha, e⟩)))
  · exact .inl ⟨_, e⟩
  · exact .inl ⟨_, e⟩
  · exact .inr (.inr (.inl ⟨hi, hc, ⟨bs, rest, ha, hb⟩, e⟩))
  · exact .inl ⟨_, e⟩
  · exact .inl ⟨_, e⟩

theorem ExecNext.rom {i : Instr} {s t : State} (h : ExecNext i s t) : t.rom = s.rom := by cases h <;> rfl

/-- R39: a command leaves OUTQ alone or is an OUT. -/
theorem ExecNext.outq {i : Instr} {s t : State} (h : ExecNext i s t) :
    t.outq = s.outq ∨ ∃ rs1, i = .out rs1 ∧ t.outq = s.outq ++ [s.reg rs1] := by
  cases h
  case emitted rs1 hi => exact .inr ⟨rs1, hi, rfl⟩
  all_goals exact .inl rfl

/-- Settles O45, by the cases of the step and the one command that writes OUTQ. -/
theorem onlyOutAppendsToTheOutputStream : Obligations.OnlyOutAppendsToTheOutputStream := by
  intro s t h
  obtain rfl | rfl | ⟨e, es, level, he, hr, rfl⟩ | ⟨w, es, he⟩ := stepNext_cases h
  · exact .inl rfl
  · exact .inl rfl
  · exact .inr (.inr ⟨e, es, he, hr, rfl⟩)
  · obtain ⟨-, rfl⟩ | ⟨-, rfl⟩ | ⟨hw, i, hi, hx⟩ := stepWord_cases he h
    · exact .inl rfl
    · exact .inl rfl
    · obtain kept | ⟨rs1, rfl, grown⟩ := hx.outq
      · exact .inl kept
      · exact .inr (.inl ⟨w, es, rs1, hw, hi, grown⟩)

/-- R27, R33, R36, R37: the command that writes K, N, CFGV, XV, C or X. -/
theorem ExecNext.writers {i : Instr} {s t : State} (h : ExecNext i s t) :
    ((t.k = s.k ∧ t.n = s.n ∧ t.cfgv = s.cfgv) ∨
      ∃ k n, i = .cfg k n ∧ t.k = k ∧ t.n = n ∧ t.cfgv = true ∧ t.xv = false) ∧
    (t.xv = s.xv ∨ (t.xv = false ∧ ∃ k n, i = .cfg k n) ∨ (t.xv = true ∧ i = .perm)) ∧
    (t.coef = s.coef ∨ i = .rndc ∨ ∃ rs1 idx, i = .wrc rs1 idx) ∧
    (t.coord = s.coord ∨ i = .perm) := by
  cases h
  case configured k n hi _ _ =>
    exact ⟨.inr ⟨k, n, hi, rfl, rfl, rfl, rfl⟩, .inr (.inl ⟨rfl, k, n, hi⟩), .inl rfl, .inl rfl⟩
  case coefWritten rs1 idx hi => exact ⟨.inl ⟨rfl, rfl, rfl⟩, .inl rfl, .inr (.inr ⟨rs1, idx, hi⟩), .inl rfl⟩
  case coefsDrawn hi => exact ⟨.inl ⟨rfl, rfl, rfl⟩, .inl rfl, .inr (.inl hi), .inl rfl⟩
  case coordsLoaded hi _ _ => exact ⟨.inl ⟨rfl, rfl, rfl⟩, .inr (.inr ⟨rfl, hi⟩), .inl rfl, .inr hi⟩
  all_goals exact ⟨.inl ⟨rfl, rfl, rfl⟩, .inl rfl, .inl rfl, .inl rfl⟩

/-- R33: no step writes the ROM. -/
theorem rom_eq_of_step {s t : State} (h : step s = .next t) : t.rom = s.rom := by
  obtain rfl | rfl | ⟨_, _, _, -, -, rfl⟩ | ⟨w, es, he⟩ := stepNext_cases h
  · rfl
  · rfl
  · rfl
  · obtain ⟨-, rfl⟩ | ⟨-, rfl⟩ | ⟨-, i, -, hx⟩ := stepWord_cases he h
    · rfl
    · rfl
    · exact hx.rom

/-- Settles O47, by the cases of a delivered word and the commands that write each field. -/
theorem whoWritesConfigurationAndFiles : Obligations.WhoWritesConfigurationAndFiles := by
  refine fun s t h => ⟨rom_eq_of_step h, fun w es he => ?_⟩
  obtain ⟨-, rfl⟩ | ⟨-, rfl⟩ | ⟨-, i, hi, hx⟩ := stepWord_cases he h
  · exact ⟨.inl ⟨rfl, rfl, rfl⟩, .inl rfl, .inl rfl, .inl rfl⟩
  · exact ⟨.inl ⟨rfl, rfl, rfl⟩, .inl rfl, .inl rfl, .inl rfl⟩
  · rw [hi]
    simpa using hx.writers

/-! ### The counter -/

/-- A command leaves the host's events and the RESET input alone. -/
theorem ExecNext.host {i : Instr} {s t : State} (h : ExecNext i s t) :
    t.io.events = s.io.events ∧ t.io.resetLine = s.io.resetLine := by cases h <;> exact ⟨rfl, rfl⟩

/-- R25, R202, R203: a command faults and leaves its word, or counts itself. -/
theorem ExecNext.fault_or_counts {i : Instr} {s t : State} (h : ExecNext i s t) :
    (t.fault = true ∧ t.fcmd = encode i ∧ t.cc = s.cc) ∨ (t.fault = s.fault ∧ t.cc = s.cc + 1) := by
  cases h
  case raised | entropyFailed | permutationFailed => exact .inl ⟨rfl, rfl, rfl⟩
  all_goals exact .inr ⟨rfl, rfl⟩

/-- R25, R203: the step that receives a word takes it off the port, and faults with that word or counts it. -/
theorem step_of_receives {s t : State} {w : CmdWord} {es : List HostEvent} (hw : s.Receives w es)
    (h : step s = .next t) :
    t.io.events = es ∧ t.io.resetLine = false ∧
      (t.fault = true ∧ t.fcmd = w ∧ t.cc = s.cc ∨ t.fault = false ∧ t.cc = s.cc + 1) := by
  have rest : s.dropEvent.io.events = es := by simp [hw.events]
  obtain ⟨stopped, -⟩ | ⟨-, rfl⟩ | ⟨-, i, hi, hx⟩ := stepWord_cases hw.events h
  · simp [hw.released, hw.unfaulted] at stopped
  · exact ⟨rest, hw.released, .inl ⟨rfl, rfl, rfl⟩⟩
  · obtain ⟨events, line⟩ := hx.host
    refine ⟨events.trans rest, line.trans hw.released, ?_⟩
    rw [← encode_of_decode_eq_ok hi, ← hw.unfaulted]
    exact hx.fault_or_counts

theorem run_succ {n : ℕ} {s t : State} (h : Host.Core.run core (n + 1) s = .next t) :
    ∃ s', step s = .next s' ∧ Host.Core.run core n s' = .next t := by
  simp only [Host.Core.run] at h
  split at h
  next s' hs => exact ⟨s', hs, h⟩
  next => cases h
  next => cases h

/-- R205: a halted block takes words off the port and keeps its record and its count. -/
theorem run_of_fault {ws : List CmdWord} {s t : State} (hf : s.fault = true)
    (he : s.io.events = ws.map .command) (h : Host.Core.run core ws.length s = .next t) :
    t.fault = true ∧ t.fcmd = s.fcmd ∧ t.cc = s.cc := by
  induction ws generalizing s with
  | nil =>
    cases h
    exact ⟨hf, rfl, rfl⟩
  | cons w ws ih =>
    obtain ⟨s', hs, hrun⟩ := run_succ h
    obtain ⟨-, rfl⟩ | ⟨hw, -⟩ | ⟨hw, -⟩ := stepWord_cases he hs
    · exact ih (s := s.dropEvent) hf (by simp [he]) hrun
    · simp [hw.unfaulted] at hf
    · simp [hw.unfaulted] at hf

theorem add_one_add_ofNat (c : BitVec 32) (n : ℕ) : c + 1 + BitVec.ofNat 32 n = c + BitVec.ofNat 32 (n + 1) := by
  rw [BitVec.add_assoc, Nat.add_comm n 1, BitVec.ofNat_add]
  rfl

/-- Settles O46, by induction on the stream: a word that faults halts the block, and any other is counted. -/
theorem counterIsThePositionInTheStream : Obligations.CounterIsThePositionInTheStream := by
  intro ws
  induction ws with
  | nil =>
    intro s t hf _ _ h
    cases h
    exact .inl ⟨hf, by simp⟩
  | cons w ws ih =>
    intro s t hf hr he h
    obtain ⟨s', hs, hrun⟩ := run_succ h
    obtain ⟨events, line, ⟨fault, word, cc⟩ | ⟨fault, cc⟩⟩ := step_of_receives ⟨he, hr, hf⟩ hs
    · obtain ⟨ft, wt, ct⟩ := run_of_fault fault events hrun
      exact .inr ⟨ft, 0, by rw [wt, word]; rfl, by simp [ct, cc]⟩
    · obtain ⟨ft, ct⟩ | ⟨ft, j, wt, ct⟩ := ih s' t fault line events hrun
      · exact .inl ⟨ft, by rw [ct, cc, add_one_add_ofNat, List.length_cons]⟩
      · exact .inr ⟨ft, j + 1, wt, by rw [ct, cc, add_one_add_ofNat]⟩

end Sys2Proof.Machine
end

section
/-! SUPPORT. The status words (spec 10 R26, R27, R29, R30) and the coordinates of a routed block (R38, spec 42 R143). -/

namespace Sys2Proof.Machine

theorem getLsbD_statusField {width : ℕ} (v : BitVec width) (lo b : ℕ) :
    (statusField v lo).getLsbD b = (decide (b < 32) && decide (lo ≤ b) && v.getLsbD (b - lo)) := by
  rw [statusField, BitVec.getLsbD_shiftLeft, BitVec.getLsbD_setWidth]
  by_cases h : b < lo
  · simp [h]
  · by_cases hb : b < 32
    · simp [h, hb, Nat.not_lt.mp h, show b - lo < 32 by omega]
    · simp [hb]

theorem State.getLsbD_statusWord (s : State) (b : ℕ) :
    s.statusWord.getLsbD b =
      if b = 0 then s.fault else if b = 1 then s.cfgv else if b = 2 then s.xv
        else if 8 ≤ b ∧ b ≤ 11 then s.cause.getLsbD (b - 8) else false := by
  simp only [State.statusWord, BitVec.getLsbD_or, getLsbD_statusField, BitVec.getLsbD_ofBool]
  by_cases high : 12 ≤ b
  · have hc : s.cause.getLsbD (b - 8) = false := BitVec.getLsbD_of_ge _ _ (by omega)
    have h1 : b - 1 ≠ 0 := by omega
    have h2 : b - 2 ≠ 0 := by omega
    grind
  · interval_cases b <;> simp

theorem State.getLsbD_configWord (s : State) (b : ℕ) :
    s.configWord.getLsbD b = if b ≤ 7 then s.k.getLsbD b else if b ≤ 15 then s.n.getLsbD (b - 8) else false := by
  simp only [State.configWord, BitVec.getLsbD_or, getLsbD_statusField]
  have hk : 8 ≤ b → s.k.getLsbD b = false := s.k.getLsbD_of_ge b
  have hn : 16 ≤ b → s.n.getLsbD (b - 8) = false := fun h => s.n.getLsbD_of_ge _ (by omega)
  grind

theorem State.statusRead_of_ge (s : State) {a : BitVec 8} (h : 4 ≤ a.toNat) : s.statusRead a = 0 := by
  unfold State.statusRead
  split
  case h_5 => rfl
  all_goals omega

/-- Settles O51, bit by bit. -/
theorem statusPortShowsTheRegisters : Obligations.StatusPortShowsTheRegisters := by
  intro s
  exact ⟨s.getLsbD_statusWord, s.getLsbD_configWord, rfl, rfl, fun _ => s.statusRead_of_ge,
    (s.getLsbD_statusWord 0).symm⟩

/-- The coordinate list is a permutation (R142) when the coordinates at indices below N are distinct values below N. -/
theorem isPerm_coordList_iff (s : State) :
    isPerm s.coordList s.n.toNat = true ↔
      (∀ i < s.n.toNat, (s.coordAt i).toNat < s.n.toNat) ∧ Set.InjOn s.coordAt (Finset.range s.n.toNat) := by
  simp [isPerm_iff, State.coordList, List.nodup_map_iff_inj_on, Set.InjOn, List.nodup_range]

/-- R38: every value below N is the coordinate of one index, because N distinct values below N are all of them. -/
theorem State.existsUnique_coordAt {s : State} (hperm : isPerm s.coordList s.n.toNat = true) {v : Byte}
    (hv : v.toNat < s.n.toNat) : ∃! i, i < s.n.toNat ∧ s.coordAt i = v := by
  obtain ⟨below, inj⟩ := (isPerm_coordList_iff s).mp hperm
  have into : Set.MapsTo (fun i => (s.coordAt i).toNat) (Finset.range s.n.toNat) (Finset.range s.n.toNat) := by
    simpa [Set.MapsTo] using below
  have injNat : Set.InjOn (fun i => (s.coordAt i).toNat) (Finset.range s.n.toNat) := fun i hi j hj e =>
    inj hi hj (BitVec.eq_of_toNat_eq e)
  obtain ⟨i, hi, e⟩ := Finset.surjOn_of_injOn_of_card_le _ into injNat le_rfl (by simpa using hv)
  have found : s.coordAt i = v := BitVec.eq_of_toNat_eq e
  exact ⟨i, ⟨by simpa using hi, found⟩, fun j ⟨hj, hjv⟩ => inj (by simpa using hj) hi (hjv.trans found.symm)⟩

/-- Settles O33: the invariant makes the coordinates a permutation, and horner gives C[0] at 0. -/
theorem coordinatesAreAPermutationAndZeroGetsTheIntercept :
    Obligations.CoordinatesAreAPermutationAndZeroGetsTheIntercept := by
  intro p s hs hx
  obtain ⟨hc, hperm⟩ := hs.coords hx
  refine ⟨((isPerm_coordList_iff s).mp hperm).1, fun v hv => State.existsUnique_coordAt hperm hv,
    fun rd i hi hzero => ⟨_, ?_, s.regWritten_setReg_tick rd _⟩⟩
  rw [exec, execEvalp, s.requireConfig_of_set _ _ hc, s.requireCoords_of_set _ _ hx,
    s.requireCoordIndex_of_lt _ _ hi, hzero, State.horner, if_pos rfl]

end Sys2Proof.Machine
end

section
/-! SUPPORT. The field product in the polynomial ring of the library (spec 10 R34), what EXP and LOG hold (R31, R32),
the loop that builds them (R34), and LOG[0], which no product or quotient reads. -/

namespace Sys2Proof

open Polynomial Machine

/-! ### The product of polynomials -/

theorem monic_bitPoly {v : ℕ} (high : v.testBit 8 = true) (hv : v < 2 ^ 9) : (bitPoly v).Monic := by
  have deg : (bitPoly v).natDegree ≤ 8 := natDegree_le_iff_degree_le.mpr <|
    Order.lt_succ_iff.mp ((degree_bitPoly_lt_iff v 9).mpr hv)
  exact monic_of_natDegree_le_of_coeff_eq_one 8 deg (by rw [coeff_bitPoly, if_pos high])

/-- A residue below the degree of GF_POLY is the remainder. -/
theorem bitPoly_eq_modByMonic {poly : BitVec 9} (h8 : poly.getLsbD 8 = true) (v : Byte) {f : (ZMod 2)[X]}
    (h : AdjoinRoot.mk (bitPoly poly.toNat) (bitPoly v.toNat) = AdjoinRoot.mk (bitPoly poly.toNat) f) :
    bitPoly v.toNat = f %ₘ bitPoly poly.toNat := by
  have high : poly.toNat.testBit 8 = true := (BitVec.testBit_toNat poly).trans h8
  have monic := monic_bitPoly high poly.isLt
  have low : (bitPoly v.toNat).degree < (bitPoly poly.toNat).degree := by
    refine ((degree_bitPoly_lt_iff v.toNat 8).mpr v.isLt).trans_le (not_lt.mp fun h => ?_)
    exact absurd ((degree_bitPoly_lt_iff poly.toNat 8).mp h) (Nat.not_lt.mpr (Nat.ge_two_pow_of_testBit high))
  rw [← (modByMonic_eq_self_iff monic).mpr low]
  exact modByMonic_eq_of_dvd_sub monic (AdjoinRoot.mk_eq_mk.mp h)

/-- The sum of the terms of a word's bits is the polynomial of its value. -/
theorem sum_getLsbD_eq_bitPoly (v : BitVec 9) :
    (∑ j ∈ Finset.range 9, if v.getLsbD j then (X : (ZMod 2)[X]) ^ j else 0) = bitPoly v.toNat := by
  ext j
  rw [coeff_bitPoly]
  simp only [finsetSum_coeff, coeff_ite_X_pow, Finset.sum_ite_eq, Finset.mem_range, BitVec.testBit_toNat]
  by_cases h : j < 9
  · simp [h]
  · simp [h, v.getLsbD_of_ge j (Nat.not_lt.mp h)]

/-- Settles O12: the product's residue class is that of the product of polynomials, and its degree is below 8. -/
theorem fieldProductIsThePolynomialProduct : Obligations.FieldProductIsThePolynomialProduct := by
  intro p h8 a b
  have ofByte (v : Byte) : (v.setWidth 9).toNat = v.toNat := BitVec.toNat_setWidth_of_le (by decide)
  simp only [sum_getLsbD_eq_bitPoly, ofByte]
  exact bitPoly_eq_modByMonic h8 _ ((FieldParams.residue_mul h8 a b).trans (map_mul _ _ _).symm)

/-! ### EXP and LOG -/

theorem FieldParams.expAt_rom_255 (p : FieldParams) : p.rom.expAt 255 = 1 := by
  simp [Rom.expAt, romAt, FieldParams.rom, FieldParams.powers, FieldParams.length_powersFrom]

/-- Settles O14, by the entries of the list of powers. -/
theorem expHoldsThePowersOfTheGenerator : Obligations.ExpHoldsThePowersOfTheGenerator := fun p =>
  ⟨fun _ hi => p.expAt_rom (Nat.lt_succ_of_le hi), p.expAt_rom_255⟩

theorem FieldParams.logAt_rom_zero (p : FieldParams) : p.rom.logAt 0 = 0 := by
  rw [p.logAt_rom, FieldParams.logOf, if_pos rfl]

section

variable {p : FieldParams} (hp : p.legal = true)
include hp

theorem FieldParams.logAt_pow_gen {i : Byte} (hi : i.toNat < 255) : p.rom.logAt (p.pow p.gen i.toNat) = i := by
  obtain ⟨below, power⟩ := logAt_rom_spec hp (pow_gen_ne_zero hp i.toNat)
  exact BitVec.eq_of_toNat_eq (pow_gen_injOn hp (by simpa using below) (by simpa using hi) power)

theorem FieldParams.logAt_rom_lt (v : Byte) : (p.rom.logAt v).toNat < 255 := by
  by_cases hv : v = 0
  · rw [hv, p.logAt_rom_zero]
    decide
  · exact (logAt_rom_spec hp hv).1

end

/-- Settles O15: LOG gives back the exponent, because the first 255 powers are distinct and are all nonzero bytes. -/
theorem logInvertsExp : Obligations.LogInvertsExp := by
  intro p hp
  have inverse (i : Byte) (hi : i.toNat ≤ 254) : p.rom.logAt (p.rom.expAt i) = i := by
    rw [p.expAt_rom (by omega), FieldParams.logAt_pow_gen hp (by omega)]
  refine ⟨inverse, p.logAt_rom_zero, FieldParams.logAt_pow_gen hp (i := 0) (by decide),
    fun v => Nat.le_of_lt_succ (FieldParams.logAt_rom_lt hp v), fun v hv => ?_⟩
  obtain ⟨below, power⟩ := FieldParams.logAt_rom_spec hp hv
  refine ⟨p.rom.logAt v, ⟨Nat.le_of_lt_succ below, (p.expAt_rom below).trans power⟩, ?_⟩
  rintro i ⟨hi, rfl⟩
  exact (inverse i hi).symm

/-! ### Tables with an entry written -/

theorem Machine.romAt_setIfInBounds (table : Vector Byte 256) (i : ℕ) (v : Byte) (j : Byte) :
    romAt (table.setIfInBounds i v) j = if i = j.toNat then v else romAt table j :=
  Vector.getElem_setIfInBounds j.isLt

@[simp] theorem Machine.Rom.expAt_withLog0 (t : Rom) (v i : Byte) : (t.withLog0 v).expAt i = t.expAt i := rfl

@[simp] theorem Machine.Rom.logAt_withExp255 (t : Rom) (v i : Byte) : (t.withExp255 v).logAt i = t.logAt i := rfl

theorem Machine.Rom.logAt_withLog0 (t : Rom) (v i : Byte) :
    (t.withLog0 v).logAt i = if i = 0 then v else t.logAt i :=
  (romAt_setIfInBounds t.log 0 v i).trans
    (if_congr ⟨fun e => BitVec.eq_of_toNat_eq e.symm, fun e => e ▸ rfl⟩ rfl rfl)

theorem Machine.Rom.expAt_withExp255 (t : Rom) (v i : Byte) :
    (t.withExp255 v).expAt i = if i = 255 then v else t.expAt i :=
  (romAt_setIfInBounds t.exp 255 v i).trans
    (if_congr ⟨fun e => BitVec.eq_of_toNat_eq e.symm, fun e => e ▸ rfl⟩ rfl rfl)

theorem Machine.Rom.ext_at {t u : Rom} (exp : ∀ i, t.expAt i = u.expAt i) (log : ∀ v, t.logAt v = u.logAt v) :
    t = u := by
  have entries {a b : Vector Byte 256} (h : ∀ i, romAt a i = romAt b i) : a = b :=
    Vector.ext fun i hi => by simpa [romAt, Nat.mod_eq_of_lt hi] using h (BitVec.ofNat 8 i)
  cases t
  cases u
  rw [Rom.mk.injEq]
  exact ⟨entries exp, entries log⟩

/-! ### The loop of R34 -/

theorem FieldParams.expAt_fillTables (p : FieldParams) (count i : ℕ) (t : Rom) (j : Byte) :
    (p.fillTables count i (p.pow p.gen i) t).expAt j =
      if i ≤ j.toNat ∧ j.toNat < i + count then p.pow p.gen j.toNat else t.expAt j := by
  induction count generalizing i t with
  | zero => exact (if_neg (by omega)).symm
  | succ count ih =>
    rw [FieldParams.fillTables, ← FieldParams.pow, ih, Rom.expAt, romAt_setIfInBounds]
    by_cases h : i = j.toNat
    · rw [if_neg (by omega), if_pos h, if_pos (by omega), h]
    · rw [if_neg h]
      exact if_congr (by omega) rfl rfl

/-- The loop writes LOG at the powers it lists only. -/
theorem FieldParams.logAt_fillTables_of_ne (p : FieldParams) (count i : ℕ) (t : Rom) {v : Byte}
    (hv : ∀ j, i ≤ j → j < i + count → p.pow p.gen j ≠ v) :
    (p.fillTables count i (p.pow p.gen i) t).logAt v = t.logAt v := by
  induction count generalizing i t with
  | zero => rfl
  | succ count ih =>
    have other : (p.pow p.gen i).toNat ≠ v.toNat := fun e => hv i le_rfl (by omega) (BitVec.eq_of_toNat_eq e)
    rw [FieldParams.fillTables, ← FieldParams.pow, ih _ _ fun j hij hj => hv j (by omega) (by omega), Rom.logAt,
      romAt_setIfInBounds, if_neg other, Rom.logAt]

/-- Distinct powers keep the exponents that the loop writes to LOG. -/
theorem FieldParams.logAt_fillTables_pow (p : FieldParams) (count i : ℕ) (t : Rom) {j : ℕ} (hij : i ≤ j)
    (hj : j < i + count) (inj : Set.InjOn (p.pow p.gen) (Set.Ico i (i + count))) :
    (p.fillTables count i (p.pow p.gen i) t).logAt (p.pow p.gen j) = BitVec.ofNat 8 j := by
  induction count generalizing i t with
  | zero => omega
  | succ count ih =>
    rw [FieldParams.fillTables, ← FieldParams.pow]
    obtain rfl | hlt := Nat.eq_or_lt_of_le hij
    · have later (k : ℕ) (hk : i + 1 ≤ k) (hk' : k < i + 1 + count) : p.pow p.gen k ≠ p.pow p.gen i := fun e =>
        absurd (inj ⟨by omega, by omega⟩ ⟨le_rfl, hj⟩ e) (by omega)
      rw [p.logAt_fillTables_of_ne _ _ _ later, Rom.logAt, romAt_setIfInBounds, if_pos rfl]
    · exact ih _ _ hlt (by omega) (inj.mono (Set.Ico_subset_Ico (by omega) (by omega)))

theorem FieldParams.buildTables_eq_rom {p : FieldParams} (hp : p.legal = true) (blank : Rom) :
    p.buildTables blank = p.rom := by
  have built : p.buildTables blank = ((p.fillTables 255 0 (p.pow p.gen 0) blank).withExp255 1).withLog0 0 := by
    simp only [FieldParams.buildTables, Rom.withExp255, Rom.withLog0, FieldParams.pow]
  rw [built]
  refine Rom.ext_at (fun i => ?_) fun v => ?_
  · rw [Rom.expAt_withLog0, Rom.expAt_withExp255, p.expAt_fillTables]
    by_cases top : i = 255
    · rw [if_pos top, top, p.expAt_rom_255]
    · have hi : i.toNat < 255 := by bv_omega
      rw [if_neg top, if_pos (by omega), p.expAt_rom hi]
  · rw [Rom.logAt_withLog0, Rom.logAt_withExp255]
    by_cases hv : v = 0
    · rw [if_pos hv, hv, p.logAt_rom_zero]
    · obtain ⟨below, power⟩ := logAt_rom_spec hp hv
      have inj : Set.InjOn (p.pow p.gen) (Set.Ico 0 (0 + 255)) :=
        (pow_gen_injOn hp).mono fun k hk => by simpa using hk
      rw [if_neg hv]
      conv_lhs => rw [← power]
      rw [p.logAt_fillTables_pow 255 0 blank (Nat.zero_le _) (by omega) inj, BitVec.ofNat_toNat, BitVec.setWidth_eq]

/-- Settles O16, entry by entry. -/
theorem tableProcedureBuildsTheTables : Obligations.TableProcedureBuildsTheTables := by
  intro p hp
  obtain ⟨-, -, last, -⟩ := p.legal_iff.mp hp
  exact ⟨FieldParams.buildTables_eq_rom hp, last⟩

/-! ### LOG[0] -/

/-- R103, R106: a product with a zero operand and a zero dividend's quotient are masked, and no other reads LOG[0]. -/
theorem Machine.Rom.sameResults_withLog0 (t : Rom) (v : Byte) : t.SameResults (t.withLog0 v) where
  mul a b := by
    by_cases hzero : a = 0 ∨ b = 0
    · rw [gfMul_of_zero _ hzero, gfMul_of_zero _ hzero]
    · obtain ⟨ha, hb⟩ := not_or.mp hzero
      rw [gfMul_of_ne _ ha hb, gfMul_of_ne _ ha hb, t.expAt_withLog0, t.logAt_withLog0,
        t.logAt_withLog0, if_neg ha, if_neg hb]
  div a b hb := by
    by_cases ha : a = 0
    · rw [ha, gfDiv_zero_left, gfDiv_zero_left]
    · rw [gfDiv_of_ne _ _ ha, gfDiv_of_ne _ _ ha, t.expAt_withLog0, t.logAt_withLog0,
        t.logAt_withLog0, if_neg ha, if_neg hb]

/-- Settles O19: the two ROMs have the same products and quotients. -/
theorem log0ShowsInNoResult : Obligations.Log0ShowsInNoResult := fun s v =>
  (s.rom.sameResults_withLog0 v).step

end Sys2Proof
end

section
/-! SUPPORT. The step that receives a legal word (spec 20 R55, spec 30 R76), and which commands use an answer of a
provider (R56, spec 41 R125). -/

namespace Sys2Proof.Machine

theorem State.dropEvent_of_events {s : State} {e : HostEvent} {es : List HostEvent} (he : s.io.events = e :: es) :
    s.dropEvent = { s with io := { s.io with events := es } } := by
  rw [State.dropEvent, he, List.tail_cons]

theorem acceptWord_of_decode {s : State} {w : CmdWord} {i : Instr} (hf : s.fault = false) (hi : decode w = .ok i) :
    acceptWord w s = exec i s := by
  simp [acceptWord, hf, hi]

theorem State.Receives.step_eq_exec {s : State} {w : CmdWord} {es : List HostEvent} {i : Instr}
    (hw : s.Receives w es) (hi : decode w = .ok i) : step s = exec i s.dropEvent := by
  have accepted : deliver (.command w) s.dropEvent = acceptWord w s.dropEvent := by simp [deliver, hw.released]
  rw [step, deliverNext, hw.events]
  exact accepted.trans (acceptWord_of_decode hw.unfaulted hi)

/-- Settles O7: the event taken is the word, which is accepted and decoded. -/
theorem stepRunsTheDecodedCommand : Obligations.StepRunsTheDecodedCommand := by
  intro s w es i hw hi
  rw [hw.step_eq_exec hi, State.dropEvent_of_events hw.events]

/-! ### Provider requests -/

/-- R56: only RNDC takes from the entropy port, only PERM from the permutation port. -/
theorem answersKept_of_exec {i : Instr} {s t : State} (h : exec i s = .next t) :
    (t.io.entropy = s.io.entropy ∨ i = .rndc) ∧ (t.io.permutations = s.io.permutations ∨ i = .perm) := by
  obtain ⟨_, e, -⟩ | ⟨_, _, e, -⟩ | ⟨-, e⟩ | ⟨_, _, -, -, -, e⟩ | ⟨_, _, -, e⟩ | ⟨_, -, -, e⟩ | ⟨_, -, -, e⟩ |
    ⟨-, -, -, e⟩ | ⟨-, -, -, e⟩ | ⟨hi, -, _, _, -, e⟩ | ⟨hi, -, _, _, -, -, e⟩ | ⟨-, -, _, _, -, -, e⟩ |
    ⟨hi, -, _, _, -, e⟩ | ⟨hi, -, _, _, -, -, e⟩ := exec_cases i s
  all_goals cases e.symm.trans h
  · exact ⟨.inl rfl, .inl rfl⟩
  · exact ⟨.inl rfl, .inl rfl⟩
  · exact ⟨.inl rfl, .inl rfl⟩
  · exact ⟨.inl rfl, .inl rfl⟩
  · exact ⟨.inl rfl, .inl rfl⟩
  · exact ⟨.inl rfl, .inl rfl⟩
  · exact ⟨.inr hi, .inl rfl⟩
  · exact ⟨.inr hi, .inl rfl⟩
  · exact ⟨.inl rfl, .inr hi⟩
  · exact ⟨.inl rfl, .inr hi⟩

/-- R56, R166: an RNDC that ends in a next state used one answer, a `Fail` or K-1 bytes, if the block is configured. -/
theorem execRndc_entropy {s t : State} (h : execRndc s = .next t) :
    (s.cfgv = false ∧ t.io.entropy = s.io.entropy) ∨
    (s.cfgv = true ∧ ∃ a, s.io.entropy = a :: t.io.entropy ∧
      (a = .fail ∨ ∃ bs, a = .ok bs ∧ bs.length = s.k.toNat - 1)) := by
  obtain ⟨hc, e⟩ | ⟨-, -, e⟩ | ⟨hc, a, rest, ha, e⟩ := execRndc_cases s
  · cases e.symm.trans h
    exact .inl ⟨hc, rfl⟩
  · cases e.symm.trans h
  · obtain ⟨rfl, e'⟩ | ⟨bs, rfl, len, e'⟩ | ⟨_, rfl, -, e'⟩ := takeCoefficients_cases (s.setEntropy rest) a
    all_goals cases (e.trans e').symm.trans h
    · exact .inr ⟨hc, _, ha, .inl rfl⟩
    · exact .inr ⟨hc, _, ha, .inr ⟨bs, rfl, len⟩⟩

/-- R56, R140: a PERM that ends in a next state used one answer if the block is configured. -/
theorem execPerm_permutations {s t : State} (h : execPerm s = .next t) :
    (s.cfgv = false ∧ t.io.permutations = s.io.permutations) ∨
    (s.cfgv = true ∧ ∃ a, s.io.permutations = a :: t.io.permutations) := by
  obtain ⟨hc, e⟩ | ⟨-, -, e⟩ | ⟨hc, a, rest, ha, e⟩ := execPerm_cases s
  · cases e.symm.trans h
    exact .inl ⟨hc, rfl⟩
  · cases e.symm.trans h
  · obtain ⟨_, -, -, e'⟩ | ⟨-, e'⟩ := takePermutation_cases (s.setPermutations rest) a
    all_goals cases (e.trans e').symm.trans h
    · exact .inr ⟨hc, a, ha⟩
    · exact .inr ⟨hc, a, ha⟩

/-- R56, R125: the request of a command on the entropy port. -/
theorem exec_entropy {i : Instr} {s t : State} (h : exec i s = .next t) :
    (t.io.entropy = s.io.entropy ∧ ¬ (i = .rndc ∧ s.cfgv = true)) ∨
    (i = .rndc ∧ s.cfgv = true ∧ ∃ a, s.io.entropy = a :: t.io.entropy ∧
      (a = .fail ∨ ∃ bs, a = .ok bs ∧ bs.length = s.k.toNat - 1)) := by
  by_cases hi : i = .rndc
  · subst hi
    obtain ⟨hc, kept⟩ | ⟨hc, used⟩ := execRndc_entropy h
    · exact .inl ⟨kept, by simp [hc]⟩
    · exact .inr ⟨rfl, hc, used⟩
  · exact .inl ⟨(answersKept_of_exec h).1.resolve_right hi, fun rndc => hi rndc.1⟩

/-- R56, R125: the request of a command on the permutation port. -/
theorem exec_permutations {i : Instr} {s t : State} (h : exec i s = .next t) :
    (t.io.permutations = s.io.permutations ∧ ¬ (i = .perm ∧ s.cfgv = true)) ∨
    (i = .perm ∧ s.cfgv = true ∧ ∃ a, s.io.permutations = a :: t.io.permutations) := by
  by_cases hi : i = .perm
  · subst hi
    obtain ⟨hc, kept⟩ | ⟨hc, used⟩ := execPerm_permutations h
    · exact .inl ⟨kept, by simp [hc]⟩
    · exact .inr ⟨rfl, hc, used⟩
  · exact .inl ⟨(answersKept_of_exec h).2.resolve_right hi, fun perm => hi perm.1⟩

/-- R72, R76: the block that receives the word of one command receives that of no other. -/
theorem State.Receives.exists_receives_iff {s : State} {w v : CmdWord} {es : List HostEvent} {i j : Instr}
    (hw : s.Receives w es) (hi : decode w = .ok i) (hj : decode v = .ok j) : (∃ es, s.Receives v es) ↔ i = j := by
  constructor
  · rintro ⟨es', hv⟩
    obtain ⟨rfl, -⟩ : w = v ∧ es = es' := by simpa using hw.events.symm.trans hv.events
    exact Except.ok.inj (hi.symm.trans hj)
  · rintro rfl
    have same : v = w := (encode_of_decode_eq_ok hj).symm.trans (encode_of_decode_eq_ok hi)
    exact ⟨es, same ▸ hw⟩

/-- A step executes a command, or it receives no legal word and leaves the answers of both providers alone. -/
theorem stepNext_executes_or_keeps_answers {s t : State} (h : step s = .next t) :
    (∃ w es i, s.Receives w es ∧ decode w = .ok i ∧ exec i s.dropEvent = .next t) ∨
    ((∀ w es i, s.Receives w es → decode w ≠ .ok i) ∧
      t.io.entropy = s.io.entropy ∧ t.io.permutations = s.io.permutations) := by
  by_cases legal : ∃ w es i, s.Receives w es ∧ decode w = .ok i
  · obtain ⟨w, es, i, hw, hi⟩ := legal
    exact .inl ⟨w, es, i, hw, hi, (hw.step_eq_exec hi).symm.trans h⟩
  · refine .inr ⟨fun w es i hw hi => legal ⟨w, es, i, hw, hi⟩, ?_⟩
    obtain rfl | rfl | ⟨_, _, _, -, -, rfl⟩ | ⟨w, es, he⟩ := stepNext_cases h
    · exact ⟨rfl, rfl⟩
    · exact ⟨rfl, rfl⟩
    · exact ⟨rfl, rfl⟩
    · obtain ⟨-, rfl⟩ | ⟨-, rfl⟩ | ⟨hw, i, hi, -⟩ := stepWord_cases he h
      · exact ⟨rfl, rfl⟩
      · exact ⟨rfl, rfl⟩
      · exact absurd ⟨w, es, i, hw, hi⟩ legal

/-- Settles O44: the requests of the command that the step executes, if it executes one. -/
theorem providerRequestsAreOnePerRndcAndPerm : Obligations.ProviderRequestsAreOnePerRndcAndPerm := by
  intro s t h
  have rndcWord : decode 0x80000000 = .ok .rndc := rfl
  have permWord : decode 0x90000000 = .ok .perm := rfl
  obtain ⟨w, es, i, hw, hi, hx⟩ | ⟨noWord, entropy, permutations⟩ := stepNext_executes_or_keeps_answers h
  · rw [hw.exists_receives_iff hi rndcWord, hw.exists_receives_iff hi permWord]
    have entropy := exec_entropy hx
    have permutations := exec_permutations hx
    exact ⟨entropy, permutations⟩
  · exact ⟨.inl ⟨entropy, fun ⟨⟨es, hw⟩, _⟩ => noWord _ es _ hw rndcWord⟩,
      .inl ⟨permutations, fun ⟨⟨es, hw⟩, _⟩ => noWord _ es _ hw permWord⟩⟩

end Sys2Proof.Machine
end

section
/-! SUPPORT. The encoding (spec 30): decoding gives back the command that was encoded (R72, R76), a row of the opcode
map is its match and mask (R75), the reserved bits are the rest of the mask (R77), and an assembler line gives the word
of its command (R79, R80). -/

namespace Sys2Proof

/-! ### Decoding an encoded command -/

/-- R75: the word of a command matches the row of its opcode. -/
theorem encode_and_mask (i : Instr) : encode i &&& i.op.mask = i.op.pattern := by
  cases i
  case nop => exact Laws.EncodesItsRow.nop.1
  case gadd => exact (Laws.EncodesItsRow.gadd ..).1
  case gmul => exact (Laws.EncodesItsRow.gmul ..).1
  case gdiv => exact (Laws.EncodesItsRow.gdiv ..).1
  case ldi => exact (Laws.EncodesItsRow.ldi ..).1
  case cfg => exact (Laws.EncodesItsRow.cfg ..).1
  case wrc => exact (Laws.EncodesItsRow.wrc ..).1
  case rdc => exact (Laws.EncodesItsRow.rdc ..).1
  case rndc => exact Laws.EncodesItsRow.rndc.1
  case perm => exact Laws.EncodesItsRow.perm.1
  case rdx => exact (Laws.EncodesItsRow.rdx ..).1
  case eval => exact (Laws.EncodesItsRow.eval ..).1
  case evalp => exact (Laws.EncodesItsRow.evalp ..).1
  case out => exact (Laws.EncodesItsRow.out ..).1

/-- R72: the fields of a command's word are its operands. -/
theorem build_encode (i : Instr) : i.op.build (encode i) = i := by
  cases i
  case nop => exact Laws.BuildsFromItsWord.nop
  case gadd => exact Laws.BuildsFromItsWord.gadd ..
  case gmul => exact Laws.BuildsFromItsWord.gmul ..
  case gdiv => exact Laws.BuildsFromItsWord.gdiv ..
  case ldi => exact Laws.BuildsFromItsWord.ldi ..
  case cfg => exact Laws.BuildsFromItsWord.cfg ..
  case wrc => exact Laws.BuildsFromItsWord.wrc ..
  case rdc => exact Laws.BuildsFromItsWord.rdc ..
  case rndc => exact Laws.BuildsFromItsWord.rndc
  case perm => exact Laws.BuildsFromItsWord.perm
  case rdx => exact Laws.BuildsFromItsWord.rdx ..
  case eval => exact Laws.BuildsFromItsWord.eval ..
  case evalp => exact Laws.BuildsFromItsWord.evalp ..
  case out => exact Laws.BuildsFromItsWord.out ..

@[simp] theorem decode_encode (i : Instr) : decode (encode i) = .ok i :=
  have opcode : Op.ofField (opField (encode i)) = some i.op := by rw [opField_encode, Op.ofField_code]
  (decode_eq_ok_iff _ i).mpr ⟨i.op, opcode, encode_and_mask i, build_encode i⟩

/-- Settles O1: the word of a command has its opcode (R70), its row's fixed bits (R75) and its operands (R72). -/
theorem decodeOfEncodeIsTheCommand : Obligations.DecodeOfEncodeIsTheCommand := decode_encode

/-- Settles O2: the opcode's pattern and the operand fields are all the bits of a legal word. -/
theorem encodeOfDecodeIsTheWord : Obligations.EncodeOfDecodeIsTheWord := fun _ _ => encode_of_decode_eq_ok

/-! ### Match and mask -/

@[simp] theorem Op.op_build (op : Op) (w : CmdWord) : (op.build w).op = op := by cases op <;> rfl

/-- R75: every mask covers the OP field, so the masked bits tell the opcode. -/
theorem opField_of_and_mask {w : CmdWord} {op : Op} (fixed : w &&& op.mask = op.pattern) : opField w = op.code := by
  have covered : opField op.mask = BitVec.allOnes 4 := by cases op <;> rfl
  have pattern : opField op.pattern = op.code := by cases op <;> rfl
  calc opField w
    _ = opField w &&& opField op.mask := by rw [covered, BitVec.and_allOnes]
    _ = opField (w &&& op.mask) := BitVec.extractLsb'_and.symm
    _ = op.code := by rw [fixed, pattern]

theorem exists_decode_of_op_iff (op : Op) (w : CmdWord) :
    (∃ i, decode w = .ok i ∧ i.op = op) ↔ w &&& op.mask = op.pattern := by
  constructor
  · rintro ⟨i, hi, rfl⟩
    rw [← encode_of_decode_eq_ok hi, encode_and_mask]
  · intro fixed
    have opcode : Op.ofField (opField w) = some op := by rw [opField_of_and_mask fixed, Op.ofField_code]
    exact ⟨op.build w, (decode_eq_ok_iff w _).mpr ⟨op, opcode, fixed, rfl⟩, op.op_build w⟩

/-- Settles O3: the rule's columns are those of the decoder. -/
theorem wordIsOfOpcodeExactlyOnMatchAndMask : Obligations.WordIsOfOpcodeExactlyOnMatchAndMask := by
  intro row hrow w
  obtain ⟨hmatch, hmask⟩ : row.2.1 = row.1.pattern ∧ row.2.2 = row.1.mask := by
    revert row
    decide
  rw [hmatch, hmask]
  exact exists_decode_of_op_iff row.1 w

/-! ### Reserved opcodes and reserved bits -/

/-- The reserved bits of an opcode's format (R72, R77): those its mask fixes below the OP field. -/
def Op.reserved (op : Op) : CmdWord := op.mask &&& 0x0FFFFFFF

/-- The opcodes of R75, in the table's order. -/
def Op.all : List Op :=
  [.nop, .gadd, .gmul, .gdiv, .ldi, .cfg, .wrc, .rdc, .rndc, .perm, .rdx, .eval, .evalp, .out]

theorem Op.mem_all (op : Op) : op ∈ Op.all := by cases op <;> decide

theorem Op.code_injective : Function.Injective Op.code := fun op op' h => by
  simpa [Op.ofField_code] using congrArg Op.ofField h

/-- R77: exactly the opcodes 0xE and 0xF are reserved. -/
theorem Op.exists_code_eq_iff (f : BitVec 4) : (∃ op : Op, f = op.code) ↔ f.toNat < 0xE := by
  constructor
  · rintro ⟨op, rfl⟩
    cases op <;> decide
  · intro h
    have named : (Op.ofField f).isSome = true := by
      revert f
      decide
    obtain ⟨op, hop⟩ := Option.isSome_iff_exists.mp named
    exact ⟨op, (Op.code_of_ofField hop).symm⟩

/-- R76: under a legal opcode the mask asks only for the reserved bits to be 0. -/
theorem and_mask_eq_pattern_iff {w : CmdWord} {op : Op} (h : opField w = op.code) :
    w &&& op.mask = op.pattern ↔ w &&& op.reserved = 0 := by
  constructor
  · intro fixed
    have clear : op.pattern &&& 0x0FFFFFFF = 0 := by cases op <;> rfl
    rw [Op.reserved, ← BitVec.and_assoc, fixed, clear]
  · intro clear
    have split : op.mask = 0xF0000000#32 ||| op.reserved := by cases op <;> rfl
    have pattern : placeField op.code 28 = op.pattern := by cases op <;> rfl
    have opcode : w &&& 0xF0000000#32 = placeField (opField w) 28 := (placeField_extractLsb' w 28 4).symm
    rw [split, BitVec.and_or_distrib_left, clear, opcode, h, pattern]
    exact BitVec.or_zero

theorem exists_decode_eq_ok_iff (w : CmdWord) :
    (∃ i, decode w = .ok i) ↔ ∃ op : Op, opField w = op.code ∧ w &&& op.reserved = 0 := by
  constructor
  · rintro ⟨i, hi⟩
    have fixed := (exists_decode_of_op_iff i.op w).mp ⟨i, hi, rfl⟩
    have opcode := opField_of_and_mask fixed
    exact ⟨i.op, opcode, (and_mask_eq_pattern_iff opcode).mp fixed⟩
  · rintro ⟨op, opcode, clear⟩
    obtain ⟨i, hi, -⟩ := (exists_decode_of_op_iff op w).mpr ((and_mask_eq_pattern_iff opcode).mpr clear)
    exact ⟨i, hi⟩

/-- R77: the two kinds of illegal word. -/
def IsIllegal (w : CmdWord) : Prop :=
  0xE ≤ (opField w).toNat ∨ ∃ op : Op, opField w = op.code ∧ w &&& op.reserved ≠ 0

theorem not_isIllegal_iff (w : CmdWord) : ¬ IsIllegal w ↔ ∃ i, decode w = .ok i := by
  rw [IsIllegal, exists_decode_eq_ok_iff, not_or, Nat.not_le, ← Op.exists_code_eq_iff]
  constructor
  · rintro ⟨⟨op, opcode⟩, noBit⟩
    exact ⟨op, opcode, not_not.mp fun bit => noBit ⟨op, opcode, bit⟩⟩
  · rintro ⟨op, opcode, clear⟩
    refine ⟨⟨op, opcode⟩, fun ⟨op', opcode', bit⟩ => bit ?_⟩
    rwa [Op.code_injective (opcode'.symm.trans opcode)]

theorem toNat_opField (w : CmdWord) : (opField w).toNat = (w >>> 28).toNat := by
  have := w.isLt
  simp only [opField, BitVec.extractLsb'_toNat, BitVec.toNat_ushiftRight, Nat.shiftRight_eq_div_pow]
  omega

/-- R77, R72: the same, with the bits of the word and the reserved bits listed by opcode. -/
theorem isIllegal_iff_rows (w : CmdWord) :
    IsIllegal w ↔ 0xE ≤ (w >>> 28).toNat ∨
      ∃ row ∈ Op.all.map fun op => (op.code.toNat, op.reserved), (w >>> 28).toNat = row.1 ∧ w &&& row.2 ≠ 0 := by
  simp only [IsIllegal, List.mem_map, Op.mem_all, true_and, exists_exists_eq_and, ← toNat_opField,
    BitVec.toNat_inj]

theorem exists_decode_eq_error {w : CmdWord} (h : IsIllegal w) : ∃ e, decode w = .error e := by
  cases hd : decode w with
  | error e => exact ⟨e, rfl⟩
  | ok i => exact absurd h ((not_isIllegal_iff w).mpr ⟨i, hd⟩)

namespace Machine

/-- R203, R204: the ILLEGAL fault of an illegal word that the block receives. -/
theorem State.Receives.step_of_isIllegal {s : State} {w : CmdWord} {es : List HostEvent} (hw : s.Receives w es)
    (h : IsIllegal w) : step s = .next (s.dropEvent.raise .illegal w) := by
  obtain ⟨e, he⟩ := exists_decode_eq_error h
  simp [step, deliverNext, deliver, acceptWord, hw.events, hw.released, hw.unfaulted, he]

theorem FaultTaken.of_dropEvent {s t : State} {code : BitVec 4} {cmd : CmdWord}
    (h : FaultTaken s.dropEvent t code cmd) : FaultTaken s t code cmd := { h with }

theorem FaultCause.code_eq_one_iff (c : FaultCause) : c.code = 0x1 ↔ c = .illegal := by cases c <;> decide

/-- R77, R200: a legal command faults with another cause than ILLEGAL. -/
theorem cause_ne_illegal_of_exec {i : Instr} {s t : State} (h : exec i s = .next t) (running : s.fault = false)
    (hf : t.fault = true) : t.cause ≠ 0x1 := by
  obtain ⟨c, e, hc, -⟩ | ⟨_, _, e, -⟩ | ⟨-, e⟩ | ⟨_, _, -, -, -, e⟩ | ⟨_, _, -, e⟩ | ⟨_, -, -, e⟩ | ⟨_, -, -, e⟩ |
    ⟨-, -, -, e⟩ | ⟨-, -, -, e⟩ | ⟨-, -, _, _, -, e⟩ | ⟨-, -, _, _, -, -, e⟩ | ⟨-, -, _, _, -, -, e⟩ |
    ⟨-, -, _, _, -, e⟩ | ⟨-, -, _, _, -, -, e⟩ := exec_cases i s
  all_goals cases e.symm.trans h
  · exact mt (FaultCause.code_eq_one_iff c).mp hc
  -- A failed provider request is ENTROPY; a command that completes leaves FAULT at 0.
  all_goals simp_all [FaultCause.code]

/-- Settles O4: an illegal word does not decode and takes fault entry; a legal one runs its command, which has other
causes. -/
theorem illegalWordsAndNoOthersRaiseIllegal : Obligations.IllegalWordsAndNoOthersRaiseIllegal := by
  intro w illegal
  have rows : IsIllegal w ↔ illegal := isIllegal_iff_rows w
  rw [← rows]
  refine ⟨not_isIllegal_iff w, fun hw s es hr => ?_, fun legal s es t hr ht hf => ?_⟩
  · refine ⟨_, hr.step_of_isIllegal hw, (s.dropEvent.faultTaken_raise .illegal w).of_dropEvent, ?_⟩
    simp [State.dropEvent_of_events hr.events]
  · obtain ⟨i, hi⟩ := (not_isIllegal_iff w).mp legal
    exact cause_ne_illegal_of_exec ((hr.step_eq_exec hi).symm.trans ht) hr.unfaulted hf

end Machine

/-! ### Assembler lines -/

@[simp] theorem asmReg_toNat (r : RegIdx) : asmReg r.toNat = r := by simp [asmReg]

@[simp] theorem asmImm_toNat (v : Byte) : asmImm v.toNat = v := by simp [asmImm]

@[simp] theorem isRegNumber_toNat (r : RegIdx) : isRegNumber r.toNat = true := decide_eq_true r.isLt

@[simp] theorem isImmediate_toNat (v : Byte) : isImmediate v.toNat = true := decide_eq_true v.isLt

theorem assemble_of_wellFormed {a : Asm} (h : a.wellFormed = true) : assemble a = some a.toWord := if_pos h

/-- A line whose word is that of a command assembles to it. -/
theorem exists_assemble_decode {a : Asm} {i : Instr} (h : a.wellFormed = true) (word : a.toWord = encode i) :
    ∃ w, assemble a = some w ∧ decode w = .ok i :=
  ⟨encode i, by rw [assemble_of_wellFormed h, word], decode_encode i⟩

theorem assemble_word (w : CmdWord) : assemble (.word w.toNat) = some w := by
  have range : (Asm.word w.toNat).wellFormed = true := decide_eq_true w.isLt
  simp [assemble_of_wellFormed range, Asm.toWord]

/-- Settles O6: operands in range are the fields of the command, and its word decodes to it. -/
theorem assembledLinesDecodeToTheirCommand : Obligations.AssembledLinesDecodeToTheirCommand := by
  rintro d - a - b - v - u - D A B V U rfl rfl rfl rfl rfl
  refine ⟨?_, ?_, ?_, ?_, ?_, ?_, ?_, ?_, ?_, ?_, ?_, ?_, ?_, ?_, ?_, ?_, ?_, assemble_word⟩
  all_goals exact exists_assemble_decode (by simp [Asm.wellFormed]) (by simp [Asm.toWord])

/-- Settles O5, row by row. -/
theorem workedEncodings : Obligations.WorkedEncodings := by
  unfold Obligations.WorkedEncodings
  decide

end Sys2Proof
end

section
/-! SUPPORT. The field engine (spec 40): the indices its datapath forms for EXP (R103, R104, R106, R110), the laws of
its operations (R101, R108) and its three commands. -/

namespace Sys2Proof

open Machine

/-! ### The index of EXP -/

theorem toNat_foldSum_le {la lb : Byte} (ha : la.toNat < 255) (hb : lb.toNat < 255) :
    (foldSum la lb).toNat ≤ 254 := by
  rw [toNat_foldSum ha hb]
  omega

theorem toNat_wrapDiff_le {la lb : Byte} (ha : la.toNat < 255) (hb : lb.toNat < 255) :
    (wrapDiff la lb).toNat ≤ 254 := by
  rw [toNat_wrapDiff ha hb]
  omega

/-- The wrapped difference (R106) is the difference of integers mod 255. -/
theorem toNat_wrapDiff_eq_sub_emod {la lb : Byte} (ha : la.toNat < 255) (hb : lb.toNat < 255) :
    ((wrapDiff la lb).toNat : ℤ) = ((la.toNat : ℤ) - lb.toNat) % 255 := by
  rw [toNat_wrapDiff ha hb]
  omega

theorem setWidth_foldSum {la lb : Byte} (ha : la.toNat < 255) (hb : lb.toNat < 255) :
    (foldSum la lb).setWidth 8 = BitVec.ofNat 8 ((la.toNat + lb.toNat) % 255) := by
  rw [← BitVec.ofNat_toNat, toNat_foldSum ha hb]

theorem setWidth_wrapDiff {la lb : Byte} (ha : la.toNat < 255) (hb : lb.toNat < 255) :
    (wrapDiff la lb).setWidth 8 = BitVec.ofInt 8 (((la.toNat : ℤ) - lb.toNat) % 255) := by
  rw [← BitVec.ofNat_toNat, ← BitVec.ofInt_natCast, toNat_wrapDiff_eq_sub_emod ha hb]

/-- Settles O17: the logs of legal tables are below 255. -/
theorem expIsIndexedBelow255 : Obligations.ExpIsIndexedBelow255 := by
  intro p hp a b
  have ha := FieldParams.logAt_rom_lt hp a
  have hb := FieldParams.logAt_rom_lt hp b
  exact ⟨toNat_foldSum ha hb, toNat_wrapDiff_eq_sub_emod ha hb, toNat_foldSum_le ha hb, toNat_wrapDiff_le ha hb⟩

/-- Settles O20: the masks answer for the zero operands, the indices for the others. -/
theorem maskedDatapathMeetsTheSourceFormulas : Obligations.MaskedDatapathMeetsTheSourceFormulas := by
  intro p hp a b
  have loga := FieldParams.logAt_rom_lt hp a
  have logb := FieldParams.logAt_rom_lt hp b
  constructor
  · split
    next hzero => exact gfMul_of_zero _ hzero
    next hne =>
      obtain ⟨ha, hb⟩ := not_or.mp hne
      rw [gfMul_of_ne _ ha hb, setWidth_foldSum loga logb]
  · intro _
    split
    next ha => rw [ha, gfDiv_zero_left]
    next ha => rw [gfDiv_of_ne _ _ ha, setWidth_wrapDiff loga logb]

/-! ### EXP[255] -/

theorem Machine.Rom.expAt_withExp255_setWidth (t : Rom) (v : Byte) {i : BitVec 9} (hi : i.toNat ≤ 254) :
    (t.withExp255 v).expAt (i.setWidth 8) = t.expAt (i.setWidth 8) := by
  have below : i.setWidth 8 ≠ 255 := by bv_omega
  rw [t.expAt_withExp255, if_neg below]

/-- R104: the logs of legal tables form no index 255. -/
theorem FieldParams.sameResults_withExp255 {p : FieldParams} (hp : p.legal = true) (v : Byte) :
    p.rom.SameResults (p.rom.withExp255 v) where
  mul a b := by
    have index := toNat_foldSum_le (logAt_rom_lt hp a) (logAt_rom_lt hp b)
    rw [gfMul, gfMul, Rom.logAt_withExp255, Rom.logAt_withExp255, Rom.expAt_withExp255_setWidth _ _ index]
  div a b _ := by
    have index := toNat_wrapDiff_le (logAt_rom_lt hp a) (logAt_rom_lt hp b)
    rw [gfDiv, gfDiv, Rom.logAt_withExp255, Rom.logAt_withExp255, Rom.expAt_withExp255_setWidth _ _ index]

/-- Settles O18: the two ROMs have the same products and quotients. -/
theorem exp255ShowsInNoResult : Obligations.Exp255ShowsInNoResult := by
  intro p s v hp hrom
  have same : s.rom.SameResults (p.rom.withExp255 v) := by
    rw [hrom]
    exact FieldParams.sameResults_withExp255 hp v
  exact same.step

/-! ### The laws of the field -/

section

variable {p : FieldParams} (h8 : p.poly.getLsbD 8 = true)
include h8

protected theorem FieldParams.mul_comm (a b : Byte) : p.mul a b = p.mul b a := by
  refine residue_injective h8 ?_
  rw [residue_mul h8, residue_mul h8, mul_comm]

protected theorem FieldParams.mul_assoc (a b c : Byte) : p.mul (p.mul a b) c = p.mul a (p.mul b c) := by
  refine residue_injective h8 ?_
  rw [residue_mul h8, residue_mul h8, residue_mul h8, residue_mul h8, mul_assoc]

protected theorem FieldParams.mul_one (a : Byte) : p.mul a 1 = a :=
  residue_injective h8 (by simp [residue_mul h8])

theorem FieldParams.mul_xor (a b c : Byte) : p.mul a (b ^^^ c) = p.mul a b ^^^ p.mul a c := by
  refine residue_injective h8 ?_
  rw [residue_mul h8, residue_xor, residue_xor, residue_mul h8, residue_mul h8, mul_add]

end

section

variable {p : FieldParams} (hp : p.legal = true)
include hp

/-- The quotient is the one byte whose product with the divisor is the dividend (R106, R108). -/
theorem FieldParams.mul_eq_iff_eq_gfDiv_rom {b : Byte} (hb : b ≠ 0) (q a : Byte) :
    p.mul q b = a ↔ q = gfDiv p.rom a b := by
  have quotient := mul_gfDiv_rom hp a hb
  exact ⟨fun h => mul_right_cancel hp hb (h.trans quotient.symm), fun h => h ▸ quotient⟩

/-- gf_div multiplies by the inverse of the divisor, its quotient of 1 (R108). -/
theorem FieldParams.gfDiv_rom_eq_mul_inverse (a : Byte) {b : Byte} (hb : b ≠ 0) :
    gfDiv p.rom a b = p.mul a (gfDiv p.rom 1 b) := by
  obtain ⟨h8, -⟩ := p.legal_iff.mp hp
  refine ((mul_eq_iff_eq_gfDiv_rom hp hb _ a).mp ?_).symm
  rw [FieldParams.mul_assoc h8, mul_gfDiv_rom hp 1 hb, FieldParams.mul_one h8]

end

/-- Settles O21: gf_mul is the field product, which has the laws of the ring of residues. -/
theorem tablesMultiplyAndDivideInTheField : Obligations.TablesMultiplyAndDivideInTheField := by
  intro p hp
  obtain ⟨h8, -⟩ := p.legal_iff.mp hp
  refine ⟨FieldParams.gfMul_rom hp, ?_⟩
  simp only [FieldParams.gfMul_rom hp, gfAdd]
  refine ⟨fun b hb => ⟨gfDiv p.rom 1 b, ?_, fun a => FieldParams.gfDiv_rom_eq_mul_inverse hp a hb⟩,
    fun a b c => (FieldParams.mul_assoc h8 a b c).symm, FieldParams.mul_comm h8,
    fun a => ⟨?_, FieldParams.mul_one h8 a⟩, fun a _ => FieldParams.mul_gfDiv_rom hp a, FieldParams.mul_xor h8⟩
  · rw [FieldParams.mul_comm h8, FieldParams.mul_gfDiv_rom hp 1 hb]
  · rw [← FieldParams.gfMul_rom hp, gfMul_of_zero _ (.inr rfl)]

/-- Settles O23: gf_add is the exclusive or. -/
theorem additionLaws : Obligations.AdditionLaws := fun a b =>
  ⟨BitVec.xor_comm a b, by rw [gfAdd, gfAdd, ← BitVec.xor_assoc, BitVec.xor_self, BitVec.zero_xor],
    BitVec.xor_zero, BitVec.xor_self⟩

/-! ### Commands -/

/-- Settles O24, by the frame of a register write. -/
theorem gaddWritesTheXorAndCompletes : Obligations.GaddWritesTheXorAndCompletes := fun s rd _ _ =>
  ⟨_, rfl, s.regWritten_setReg_tick rd _⟩

/-- A command that completes has its units of R240 as its latency. -/
theorem Machine.latency_of_exec {i : Instr} {s t : State} (h : exec i s = .next t) (hf : t.fault = false) :
    latency i s = some (units Config.evalZeroShortcut s i) := by
  have done : completes i s = true := by simp [completes, h, hf]
  rw [latency, if_pos done]

/-- Settles O25: the register takes gf_mul of the sources, which is masked at 0 and the product for legal tables. -/
theorem gmulWritesTheProductAndCompletes : Obligations.GmulWritesTheProductAndCompletes := by
  intro s rd rs1 rs2
  have written := s.regWritten_setReg_tick rd (gfMul s.rom (s.reg rs1) (s.reg rs2))
  refine ⟨_, _, rfl, written, rfl, gfMul_of_zero _, fun hf => latency_of_exec rfl (written.fault.trans hf),
    fun p hp hrom => ?_⟩
  rw [hrom, FieldParams.gfMul_rom hp]

/-- Settles O26, by the two cases of GDIV. -/
theorem gdivDividesOrTakesDivZero : Obligations.GdivDividesOrTakesDivZero := by
  intro s rd rs1 rs2
  obtain ⟨hzero, e⟩ | ⟨hne, e⟩ := execGdiv_cases rd rs1 rs2 s
  · exact ⟨fun _ => ⟨_, e, s.faultTaken_raise _ _, rfl⟩, fun hne => absurd hzero hne⟩
  · refine ⟨fun hzero => absurd hzero hne, fun _ => ⟨_, _, e, s.regWritten_setReg_tick rd _, rfl, fun ha => ?_,
      fun p hp hrom q => ?_⟩⟩
    · rw [ha, gfDiv_zero_left]
    · rw [hrom]
      exact FieldParams.mul_eq_iff_eq_gfDiv_rom hp hne q _

end Sys2Proof
end

section
/-! SUPPORT. The control and transfer commands (spec 41): the one word of NOP (R120), and what NOP, LDI, CFG and OUT
change and leave unchanged (R122, R124, R129). -/

namespace Sys2Proof

open Machine

/-! ### The word of NOP -/

/-- The opcode of a legal word stands in its top four bits (R70, R76). -/
theorem toNat_code_of_decode {w : CmdWord} {i : Instr} (h : decode w = .ok i) :
    i.op.code.toNat = (w >>> 28).toNat := by
  have fixed := (exists_decode_of_op_iff i.op w).mp ⟨i, h, rfl⟩
  rw [← opField_of_and_mask fixed, toNat_opField]

/-- The mask of NOP leaves no bit of its word free (R75, R120). -/
theorem eq_zero_of_decode_of_op_eq_nop {w : CmdWord} {i : Instr} (h : decode w = .ok i) (hop : i.op = .nop) : w = 0 := by
  have fixed : w &&& BitVec.allOnes 32 = 0 := (exists_decode_of_op_iff .nop w).mp ⟨i, h, hop⟩
  rwa [BitVec.and_allOnes] at fixed

theorem eq_zero_of_decode_of_opcode_zero {w : CmdWord} {i : Instr} (h : decode w = .ok i) (h0 : w >>> 28 = 0) :
    w = 0 := by
  have code : i.op.code = Op.nop.code := BitVec.eq_of_toNat_eq ((toNat_code_of_decode h).trans (by rw [h0]; rfl))
  exact eq_zero_of_decode_of_op_eq_nop h (Op.code_injective code)

/-! ### Commands -/

/-- Settles O29, by the two cases of CFG. -/
theorem cfgConfiguresOrTakesConfig : Obligations.CfgConfiguresOrTakesConfig := by
  intro s k n
  obtain ⟨illegal, e⟩ | ⟨h2, hkn, e⟩ := execCfg_cases k n s
  · exact ⟨fun _ => ⟨_, e, s.faultTaken_raise _ _, rfl⟩, fun _ _ => by omega⟩
  · exact ⟨fun _ => by omega, fun _ _ => ⟨_, e, by simp⟩⟩

/-- Settles O30, by the two cases of OUT. -/
theorem outAppendsItsRegister : Obligations.OutAppendsItsRegister := by
  intro s rs1
  obtain ⟨takes, e⟩ | ⟨waits, e⟩ := execOut_cases rs1 s
  · exact ⟨fun _ => ⟨_, e, by simp⟩, fun waits => by simp [takes] at waits⟩
  · exact ⟨fun takes => by simp [waits] at takes, fun _ => e⟩

/-- Settles O27: the word is NOP's, whose meaning is to count, and every bit of it is fixed. -/
theorem nopOnlyCounts : Obligations.NopOnlyCounts := by
  refine ⟨fun s es hw => ?_, fun s => ⟨_, rfl, rfl⟩, fun w i h0 hne hi => ?_⟩
  · have counted : step s = .next s.dropEvent.tick := hw.step_eq_exec (decode_encode .nop)
    rw [counted, State.dropEvent_of_events hw.events, State.tick]
  · exact hne (eq_zero_of_decode_of_opcode_zero hi h0)

/-- Settles O28, by the frame of a register write. -/
theorem ldiLoadsTheImmediateAndCompletes : Obligations.LdiLoadsTheImmediateAndCompletes := fun s rd imm =>
  ⟨_, rfl, s.regWritten_setReg_tick rd imm⟩

end Sys2Proof
end

section
/-! SUPPORT. The permutation router (spec 42): what PERM does with its answer (R140 to R144), and the checks of RDX
(R145). -/

namespace Sys2Proof.Machine

/-! ### PERM -/

theorem execPerm_of_no_answer {s : State} (hc : s.cfgv = true) (hp : s.io.permutations = []) :
    execPerm s = .fault .awaitingPermutation := by
  rw [execPerm, s.requireConfig_of_set _ _ hc, State.requestPermutation, hp]

theorem execPerm_of_answer {s : State} {a : Answer} {rest : List Answer} (hc : s.cfgv = true)
    (hp : s.io.permutations = a :: rest) : execPerm s = (s.setPermutations rest).takePermutation a := by
  rw [execPerm, s.requireConfig_of_set _ _ hc, State.requestPermutation, hp]

/-- Fault entry is the same before and after an answer was taken off the permutation port. -/
theorem FaultTaken.of_setPermutations {s t : State} {answers : List Answer} {code : BitVec 4} {cmd : CmdWord}
    (h : FaultTaken (s.setPermutations answers) t code cmd) : FaultTaken s t code cmd := { h with }

/-- R142: an answer of another length, or with an element not below N, or with two equal elements. -/
theorem isPerm_eq_false_iff (p : List Byte) (n : ℕ) :
    isPerm p n = false ↔ p.length ≠ n ∨ (∃ b ∈ p, n ≤ b.toNat) ∨ ¬ p.Nodup := by
  rw [← Bool.not_eq_true, isPerm_iff, not_and_or, not_and_or]
  simp

/-- R140: a configured PERM whose answer is no permutation of 0..N-1 takes ENTROPY and has used the answer. -/
theorem exec_perm_takes_entropy {s : State} {a : Answer} {rest : List Answer} (hc : s.cfgv = true)
    (hp : s.io.permutations = a :: rest) (bad : ∀ p, a = .ok p → isPerm p s.n.toNat = false) :
    ∃ t, exec .perm s = .next t ∧ FaultTaken s t 0x6 0x90000000 ∧ t.io = { s.io with permutations := rest } := by
  obtain ⟨p, ha, good, -⟩ | ⟨-, e⟩ := takePermutation_cases (s.setPermutations rest) a
  · exact absurd good (Bool.eq_false_iff.mp (bad p ha))
  · exact ⟨_, (execPerm_of_answer hc hp).trans e,
      ((s.setPermutations rest).faultTaken_raise .entropy (encode .perm)).of_setPermutations, rfl⟩

/-- R140: a configured PERM whose answer is a permutation of 0..N-1 loads it. -/
theorem exec_perm_of_isPerm {s : State} {p : List Byte} {rest : List Answer} (hc : s.cfgv = true)
    (hp : s.io.permutations = .ok p :: rest) (good : isPerm p s.n.toNat = true) :
    exec .perm s = .next ((s.setPermutations rest).loadCoords p).tick :=
  (execPerm_of_answer hc hp).trans (if_pos good)

theorem State.coordsLoaded_loadCoords_tick (s : State) (answers : List Answer) (p : List Byte) :
    CoordsLoaded s ((s.setPermutations answers).loadCoords p).tick where
  xv := rfl
  regs _ := rfl
  counted := rfl
  coef := rfl
  k := rfl
  n := rfl
  cfgv := rfl
  fault := rfl
  cause := rfl
  fcmd := rfl
  outq := rfl
  rom := rfl

/-- Settles O31: PERM is checked, then waits or takes its answer, which loads X or raises ENTROPY by R142. -/
theorem permLoadsThePermutationOrFaults : Obligations.PermLoadsThePermutationOrFaults := by
  intro s rest
  refine ⟨fun hc => ?unconfigured, fun p hc hp len below nodup => ?permutation, fun p hc hp bad => ?noPermutation,
    fun hc hp => ?failed, fun hc hp => execPerm_of_no_answer hc hp⟩
  case unconfigured => exact ⟨_, s.requireConfig_of_unset _ _ hc, s.faultTaken_raise .config (encode .perm), rfl⟩
  case permutation =>
    have coordAt := (s.setPermutations rest).coordAt_loadCoords p (len ▸ Nat.le_of_lt_succ s.n.isLt)
    refine ⟨_, exec_perm_of_isPerm hc hp ((isPerm_iff p _).mpr ⟨len, below, nodup⟩),
      s.coordsLoaded_loadCoords_tick rest p, rfl, fun j h => ?_, fun j h => ?_⟩
    · rw [State.tick_coordAt, coordAt, if_pos h, List.getD_eq_getElem _ _ h]
    · rw [State.tick_coordAt, coordAt, if_neg (by omega), State.setPermutations_coordAt]
  case noPermutation =>
    exact exec_perm_takes_entropy hc hp fun _ ha => Answer.ok.inj ha ▸ (isPerm_eq_false_iff p _).mpr bad
  case failed => exact exec_perm_takes_entropy hc hp nofun

/-! ### RDX -/

/-- Settles O32, by the four cases of RDX. -/
theorem rdxReadsTheCoordinateOrFaults : Obligations.RdxReadsTheCoordinateOrFaults := by
  intro s rd idx faults
  have raised (c : FaultCause) (e : execRdx rd idx s = .next (s.raise c (encode (.rdx rd idx)))) : faults c.code :=
    ⟨_, e, s.faultTaken_raise c _, rfl⟩
  obtain ⟨hc, e⟩ | ⟨hc, hx, e⟩ | ⟨hc, hx, hi, e⟩ | ⟨hc, hx, hi, e⟩ := execRdx_cases rd idx s
  · exact ⟨fun _ => raised .config e, by simp [hc], by simp [hc], by simp [hc]⟩
  · exact ⟨by simp [hc], fun _ _ => raised .sequence e, by simp [hx], by simp [hx]⟩
  · exact ⟨by simp [hc], by simp [hx], fun _ _ _ => raised .index e, fun _ _ below => by omega⟩
  · exact ⟨by simp [hc], by simp [hx], fun _ _ above => by omega,
      fun _ _ _ => ⟨_, e, s.regWritten_setReg_tick rd _⟩⟩

end Sys2Proof.Machine
end

section
/-! SUPPORT. The coefficient file and the evaluator (spec 43): the faults of the checks that WRC, RDC, RNDC, EVAL and
EVALP make first, the frame of a write to C (R160, R166), and horner as the sum of C[j]·x^j (R171 to R173). -/

namespace Sys2Proof

namespace Machine

/-! ### The faults of the checks -/

theorem State.exists_faultTaken_of_unconfigured {s : State} (cmd : CmdWord) (go : Result) (hc : s.cfgv = false) :
    ∃ t, s.requireConfig cmd go = .next t ∧ FaultTaken s t 0x3 cmd ∧ t.io = s.io :=
  ⟨_, s.requireConfig_of_unset _ _ hc, s.faultTaken_raise .config cmd, rfl⟩

theorem State.exists_faultTaken_of_coefIndex {s : State} {idx : Byte} (cmd : CmdWord) (go : Result)
    (h : idx.toNat = 255) :
    ∃ t, s.requireCoefIndex cmd idx go = .next t ∧ FaultTaken s t 0x5 cmd ∧ t.io = s.io := by
  obtain rfl : idx = 255 := BitVec.eq_of_toNat_eq h
  exact ⟨_, s.requireCoefIndex_of_255 _ _, s.faultTaken_raise .index cmd, rfl⟩

/-! ### WRC and RDC -/

/-- A new coefficient file, in whatever way it was written, and completion; an answer may have left its port. -/
theorem State.onlyCoefWritten_tick (s : State) (coef : Vector Byte 255) (io : Ports) :
    OnlyCoefWritten s { s with coef := coef, io := io }.tick where
  regs _ := rfl
  counted := rfl
  coord := rfl
  k := rfl
  n := rfl
  cfgv := rfl
  xv := rfl
  fault := rfl
  cause := rfl
  fcmd := rfl
  outq := rfl
  rom := rfl

/-- Settles O34, by the check of the index and the write of one entry. -/
theorem wrcWritesTheCoefficientOrTakesIndex : Obligations.WrcWritesTheCoefficientOrTakesIndex := by
  intro s rs1 idx
  refine ⟨State.exists_faultTaken_of_coefIndex _ _, fun below => ?_⟩
  have coefAt (j : ℕ) := s.coefAt_setCoef idx.toNat j (s.reg rs1) (by omega)
  refine ⟨_, s.requireCoefIndex_of_lt _ _ below, s.onlyCoefWritten_tick _ _, rfl, ?_, fun j hj => ?_⟩
  · rw [State.tick_coefAt, coefAt, if_pos rfl]
  · rw [State.tick_coefAt, coefAt, if_neg hj]

/-- Settles O35, by the check of the index and the frame of a register write. -/
theorem rdcReadsTheCoefficientOrTakesIndex : Obligations.RdcReadsTheCoefficientOrTakesIndex := fun s rd _ =>
  ⟨State.exists_faultTaken_of_coefIndex _ _,
    fun below => ⟨_, s.requireCoefIndex_of_lt _ _ below, s.regWritten_setReg_tick rd _⟩⟩

/-! ### RNDC -/

theorem execRndc_of_no_answer {s : State} (hc : s.cfgv = true) (he : s.io.entropy = []) :
    execRndc s = .fault .awaitingEntropy := by
  rw [execRndc, s.requireConfig_of_set _ _ hc, State.requestEntropy, he]

theorem execRndc_of_answer {s : State} {a : Answer} {rest : List Answer} (hc : s.cfgv = true)
    (he : s.io.entropy = a :: rest) : execRndc s = (s.setEntropy rest).takeCoefficients a := by
  rw [execRndc, s.requireConfig_of_set _ _ hc, State.requestEntropy, he]

/-- Fault entry is the same before and after an answer was taken off the entropy port. -/
theorem FaultTaken.of_setEntropy {s t : State} {answers : List Answer} {code : BitVec 4} {cmd : CmdWord}
    (h : FaultTaken (s.setEntropy answers) t code cmd) : FaultTaken s t code cmd := { h with }

/-- R166: a configured RNDC with K-1 bytes writes them to C from C[1] on. -/
theorem exec_rndc_of_length {s : State} {bs : List Byte} {rest : List Answer} (hc : s.cfgv = true)
    (he : s.io.entropy = .ok bs :: rest) (len : bs.length = s.k.toNat - 1) :
    exec .rndc s = .next ((s.setEntropy rest).setCoefRun 1 bs).tick :=
  (execRndc_of_answer hc he).trans (if_pos len)

/-- Settles O36: RNDC is checked, then waits or takes its answer, which fills C from C[1] on or raises ENTROPY. -/
theorem rndcFillsTheCoefficientsOrFaults : Obligations.RndcFillsTheCoefficientsOrFaults := by
  intro s rest
  refine ⟨State.exists_faultTaken_of_unconfigured (encode .rndc) _, fun bs hc he len => ?filled,
    fun hc he => ?failed, execRndc_of_no_answer⟩
  case filled =>
    have fits : 1 + bs.length ≤ 255 := by have := s.k.isLt; omega
    have coefAt := (s.setEntropy rest).coefAt_setCoefRun 1 bs fits
    refine ⟨_, exec_rndc_of_length hc he len, s.onlyCoefWritten_tick _ _, rfl, fun j h => ?_, ?_, fun j h => ?_⟩
    · rw [State.tick_coefAt, coefAt, if_pos (by omega), Nat.add_sub_cancel_left, List.getD_eq_getElem _ _ h]
    · rw [State.tick_coefAt, coefAt, if_neg (by omega), State.setEntropy_coefAt]
    · rw [State.tick_coefAt, coefAt, if_neg (by omega), State.setEntropy_coefAt]
  case failed =>
    exact ⟨_, execRndc_of_answer hc he,
      ((s.setEntropy rest).faultTaken_raise .entropy (encode .rndc)).of_setEntropy, rfl⟩

/-! ### The fold of horner -/

/-- At 0 the last entry added is all that is left (R173). -/
theorem hornerFold_at_zero (t : Rom) (coef : Vector Byte 255) (j : ℕ) (v : Byte) :
    hornerFold t coef 0 (j + 1) v = fileAt coef 0 := by
  induction j generalizing v with
  | zero =>
    rw [hornerFold, hornerFold, gfMul_of_zero t (.inr rfl), gfAdd]
    exact BitVec.xor_zero
  | succ j ih => rw [hornerFold, ih]

/-- The fold from j down reads the entries below j only. -/
theorem hornerFold_congr (t : Rom) {c d : Vector Byte 255} (x : Byte) {j : ℕ} (v : Byte)
    (same : ∀ i < j, fileAt c i = fileAt d i) : hornerFold t c x j v = hornerFold t d x j v := by
  induction j generalizing v with
  | zero => rfl
  | succ j ih =>
    rw [hornerFold, hornerFold, same j j.lt_succ_self]
    exact ih _ fun i hi => same i (hi.trans j.lt_succ_self)

/-- The short-circuit at 0 (R171) answers what the fold would. -/
theorem State.horner_eq_hornerFold {s : State} (hk : 2 ≤ s.k.toNat) (x : Byte) :
    s.horner x = hornerFold s.rom s.coef x (s.k.toNat - 1) (s.coefAt (s.k.toNat - 1)) := by
  obtain ⟨j, hj⟩ : ∃ j, s.k.toNat - 1 = j + 1 := ⟨s.k.toNat - 2, by omega⟩
  rw [State.horner, hj]
  split
  next hx => rw [hx, hornerFold_at_zero, State.coefAt]
  next => rfl

/-- Settles O38: the fold starts at C[K-1] and goes down. -/
theorem hornerIgnoresCoefficientsFromKOn : Obligations.HornerIgnoresCoefficientsFromKOn := by
  intro s other x hk same
  have top : fileAt other (s.k.toNat - 1) = s.coefAt (s.k.toNat - 1) := same _ (by omega)
  have fold (v : Byte) : hornerFold s.rom other x (s.k.toNat - 1) v = hornerFold s.rom s.coef x (s.k.toNat - 1) v :=
    hornerFold_congr s.rom x v fun i hi => same i (by omega)
  calc State.horner { s with coef := other } x
      = hornerFold s.rom other x (s.k.toNat - 1) (fileAt other (s.k.toNat - 1)) :=
        State.horner_eq_hornerFold (s := { s with coef := other }) hk x
    _ = hornerFold s.rom s.coef x (s.k.toNat - 1) (s.coefAt (s.k.toNat - 1)) := by rw [top, fold]
    _ = s.horner x := (State.horner_eq_hornerFold hk x).symm

end Machine

section

variable {p : FieldParams} (hp : p.legal = true)
include hp

open Machine

/-- The fold from value v at index j gives v·x^j and the sum of the terms below j. -/
theorem FieldParams.hornerFold_rom (coef : Vector Byte 255) (x : Byte) (j : ℕ) (v : Byte) :
    hornerFold p.rom coef x j v = p.polyValue coef x j ^^^ p.mul v (p.pow x j) := by
  obtain ⟨h8, -⟩ := p.legal_iff.mp hp
  induction j generalizing v with
  | zero =>
    rw [hornerFold, polyValue, pow, FieldParams.mul_one h8]
    exact BitVec.zero_xor.symm
  | succ j ih =>
    rw [hornerFold, ih, gfMul_rom hp, gfAdd, polyValue, pow]
    refine residue_injective h8 ?_
    simp only [residue_xor, residue_mul h8]
    ring

/-- R173: horner is the value of the polynomial. -/
theorem Machine.State.horner_eq_polyValue {s : State} (hrom : s.rom = p.rom) (hk : 2 ≤ s.k.toNat) (x : Byte) :
    s.horner x = p.polyValue s.coef x s.k.toNat := by
  obtain ⟨j, hj⟩ : ∃ j, s.k.toNat = j + 1 := ⟨s.k.toNat - 1, by omega⟩
  rw [State.horner_eq_hornerFold hk, hrom, hj, Nat.add_sub_cancel, FieldParams.hornerFold_rom hp,
    FieldParams.polyValue, State.coefAt]

end

namespace Machine

/-- Settles O37: the fold is the sum, at 0 as everywhere. -/
theorem hornerIsThePolynomialValue : Obligations.HornerIsThePolynomialValue := by
  intro p s hp hrom hk
  have atZero : s.horner 0 = s.coefAt 0 := if_pos rfl
  exact ⟨State.horner_eq_polyValue hp hrom hk, atZero, (State.horner_eq_hornerFold hk 0).symm.trans atZero⟩

/-! ### EVAL and EVALP -/

/-- Settles O39, by the check of the configuration and the frame of a register write. -/
theorem evalWritesThePolynomialValueOrTakesConfig : Obligations.EvalWritesThePolynomialValueOrTakesConfig :=
  fun s rd _ =>
    ⟨State.exists_faultTaken_of_unconfigured _ _,
      fun hc => ⟨_, _, s.requireConfig_of_set _ _ hc, s.regWritten_setReg_tick rd _, rfl,
        fun _ hp hrom hk => State.horner_eq_polyValue hp hrom hk _⟩⟩

section

variable {s : State} {idx : Byte} (rd : RegIdx) (hc : s.cfgv = true)
include hc

theorem exec_evalp_of_no_coords (hx : s.xv = false) :
    exec (.evalp rd idx) s = .next (s.raise .sequence (encode (.evalp rd idx))) := by
  rw [exec, execEvalp, s.requireConfig_of_set _ _ hc, s.requireCoords_of_unset _ _ hx]

theorem exec_evalp_of_index_ge (hx : s.xv = true) (above : s.n.toNat ≤ idx.toNat) :
    exec (.evalp rd idx) s = .next (s.raise .index (encode (.evalp rd idx))) := by
  rw [exec, execEvalp, s.requireConfig_of_set _ _ hc, s.requireCoords_of_set _ _ hx,
    s.requireCoordIndex_of_ge _ _ above]

theorem exec_evalp_of_index_lt (hx : s.xv = true) (below : idx.toNat < s.n.toNat) :
    exec (.evalp rd idx) s = .next (s.setReg rd (s.horner (s.coordAt idx.toNat))).tick := by
  rw [exec, execEvalp, s.requireConfig_of_set _ _ hc, s.requireCoords_of_set _ _ hx,
    s.requireCoordIndex_of_lt _ _ below]

end

/-- Settles O40: the three checks in the order of R175, and the share of an index that passes them. -/
theorem evalpWritesTheShareOrFaults : Obligations.EvalpWritesTheShareOrFaults := by
  intro s rd idx faults
  have raised (c : FaultCause) (e : exec (.evalp rd idx) s = .next (s.raise c (encode (.evalp rd idx)))) :
      faults c.code := ⟨_, e, s.faultTaken_raise c _, rfl⟩
  exact ⟨State.exists_faultTaken_of_unconfigured _ _,
    fun hc hx => raised .sequence (exec_evalp_of_no_coords rd hc hx),
    fun hc hx above => raised .index (exec_evalp_of_index_ge rd hc hx above),
    fun hc hx below => ⟨_, _, exec_evalp_of_index_lt rd hc hx below, s.regWritten_setReg_tick rd _, rfl,
      fun _ hp hrom hk => State.horner_eq_polyValue hp hrom hk _⟩⟩

/-- Two register commands that write different registers commute. -/
theorem State.setReg_tick_comm (s : State) {r r' : RegIdx} (v w : Byte) (h : r ≠ r') :
    ((s.setReg r v).tick.setReg r' w).tick = ((s.setReg r' w).tick.setReg r v).tick := by
  have places : r.toNat ≠ r'.toNat := fun e => h (BitVec.eq_of_toNat_eq e)
  simp only [State.setReg, State.tick, Vector.set_comm v w places]

/-- horner reads no general register and not CC. -/
@[simp] theorem State.horner_setReg_tick (s : State) (r : RegIdx) (v x : Byte) :
    (s.setReg r v).tick.horner x = s.horner x := rfl

/-- R176: an EVALP is not changed by the register command before it. -/
theorem exec_evalp_after_setReg {s : State} {idx : Byte} (r rd : RegIdx) (v : Byte) (hc : s.cfgv = true)
    (hx : s.xv = true) (below : idx.toNat < s.n.toNat) :
    exec (.evalp rd idx) (s.setReg r v).tick =
      .next ((s.setReg r v).tick.setReg rd (s.horner (s.coordAt idx.toNat))).tick := by
  rw [exec_evalp_of_index_lt (s := (s.setReg r v).tick) rd hc hx below, State.horner_setReg_tick, State.tick_coordAt,
    State.setReg_coordAt]

/-- Settles O41: neither EVALP writes what the other reads, and writes of different registers commute. -/
theorem sharesMayBeEvaluatedInAnyOrder : Obligations.SharesMayBeEvaluatedInAnyOrder := by
  intro s rd1 rd2 i j hne hc hx hi hj
  refine ⟨_, _, _, exec_evalp_of_index_lt rd1 hc hx hi, exec_evalp_after_setReg rd1 rd2 _ hc hx hj,
    exec_evalp_of_index_lt rd2 hc hx hj, ?_⟩
  rw [s.setReg_tick_comm _ _ hne]
  exact exec_evalp_after_setReg rd2 rd1 _ hc hx hi

end Machine

end Sys2Proof
end

section
/-! SUPPORT. The halted state (spec 60): an idle block (R218), the words that a halted block refuses (R205), RESET as
the only way out (R206), and what a fault leaves behind (R201, R203, R204). -/

namespace Sys2Proof.Machine

/-! ### Idle, refused and reset -/

/-- Settles O11: without an event nothing is delivered; a release that was not asserted leaves the input as it was. -/
theorem idleBlockKeepsItsState : Obligations.IdleBlockKeepsItsState := by
  refine fun s => ⟨fun idle => by rw [step, deliverNext, idle], fun es he released => ?_⟩
  rw [← State.dropEvent_of_events he, step, deliverNext, he]
  simp [deliver, released]

/-- R205: a halted block takes a word off the port and does nothing else. -/
theorem step_of_halted {s : State} {w : CmdWord} {es : List HostEvent} (hf : s.fault = true)
    (hr : s.io.resetLine = false) (he : s.io.events = .command w :: es) : step s = .next s.dropEvent := by
  simp [step, deliverNext, deliver, acceptWord, he, hr, hf]

theorem run_succ_of_step {n : ℕ} {s s' : State} (h : step s = .next s') :
    Host.Core.run core (n + 1) s = Host.Core.run core n s' := by
  have coreStep : core.step s = .next s' := h
  simp only [Host.Core.run, coreStep]

/-- R205: the same for any number of words. -/
theorem run_of_halted {ws : List CmdWord} {es : List HostEvent} {s : State} (hf : s.fault = true)
    (hr : s.io.resetLine = false) (he : s.io.events = ws.map .command ++ es) :
    Host.Core.run core ws.length s = .next { s with io := { s.io with events := es } } := by
  induction ws generalizing s with
  | nil =>
    obtain rfl : s.io.events = es := he
    rfl
  | cons w ws ih =>
    rw [List.length_cons, run_succ_of_step (step_of_halted hf hr he)]
    exact ih (s := s.dropEvent) hf hr (by simp [he])

/-- Settles O8: no status word shows the events that are left. -/
theorem haltedBlockRefusesEveryWord : Obligations.HaltedBlockRefusesEveryWord := fun _ _ _ hf hr he =>
  ⟨_, run_of_halted hf hr he, rfl, fun _ => rfl⟩

/-- R206, R230: an assertion of RESET gives the reset state, whatever the block was doing. -/
theorem step_of_assertsReset {s : State} {e : HostEvent} {es : List HostEvent} (he : s.io.events = e :: es)
    (asserted : e.assertsReset = true) : step s = .next (s.dropEvent.applyReset.setResetLine true) := by
  rw [step, deliverNext, he]
  cases e with
  | command w => cases asserted
  | resetAssert => rfl
  | resetRelease => cases asserted
  | resetDuring w => rfl

/-- R206: a step out of the halted state is an assertion of RESET. -/
theorem Inv.assertsReset_of_leaves_halted {p : FieldParams} {s t : State} (hs : Inv p s) (hf : s.fault = true)
    (h : step s = .next t) (ht : t.fault = false) : ∃ e es, s.io.events = e :: es ∧ e.assertsReset = true := by
  have running : s.fault ≠ false := by simp [hf]
  obtain rfl | rfl | ⟨e, es, -, he, asserted | ⟨-, inReset⟩, -⟩ | ⟨w, es, he⟩ := stepNext_cases h
  · exact absurd ht running
  · exact absurd ht running
  · exact ⟨e, es, he, asserted⟩
  · exact absurd (hs.in_reset inReset).fault running
  · obtain ⟨-, rfl⟩ | ⟨hw, -⟩ | ⟨hw, -⟩ := stepWord_cases he h
    · exact absurd ht running
    · exact absurd hw.unfaulted running
    · exact absurd hw.unfaulted running

/-- Settles O10: RESET gives the reset state, and no other step leaves the halted one. -/
theorem onlyResetLeavesTheHaltedState : Obligations.OnlyResetLeavesTheHaltedState := by
  intro p s t hs hf h
  have reset : (∃ e es, s.io.events = e :: es ∧ e.assertsReset = true) → t.AtReset := by
    rintro ⟨e, es, he, asserted⟩
    cases (step_of_assertsReset he asserted).symm.trans h
    exact s.dropEvent.atReset_applyReset.setResetLine true
  refine ⟨reset, fun ht => ?_⟩
  have asserted := hs.assertsReset_of_leaves_halted hf h ht
  exact ⟨asserted, reset asserted⟩

/-! ### Fault entry -/

/-- R76: the step that receives a word takes the ILLEGAL fault or executes a command. -/
theorem State.Receives.stepNext_cases {s t : State} {w : CmdWord} {es : List HostEvent} (hw : s.Receives w es)
    (h : step s = .next t) :
    ((∃ e, decode w = .error e) ∧ t = s.dropEvent.raise .illegal w) ∨
    (∃ i, decode w = .ok i ∧ exec i s.dropEvent = .next t) := by
  have accepted : acceptWord w s.dropEvent = .next t := by
    simpa [step, deliverNext, deliver, hw.events, hw.released] using h
  obtain ⟨halted, -⟩ | ⟨-, illegal, e⟩ | ⟨-, i, hi, e⟩ := acceptWord_cases w s.dropEvent
  · exact absurd (hw.unfaulted.symm.trans halted) nofun
  · exact .inl ⟨illegal, Host.Outcome.next.inj (accepted.symm.trans e)⟩
  · exact .inr ⟨i, hi, e.symm.trans accepted⟩

/-- R203, R204: a command that faults takes fault entry with its own word, and uses no answer unless the fault is
ENTROPY. -/
theorem ExecNext.exists_faultTaken {i : Instr} {s t : State} (h : ExecNext i s t) (running : s.fault = false)
    (hf : t.fault = true) : ∃ c : FaultCause, FaultTaken s t c.code (encode i) ∧ (c = .entropy ∨ t.io = s.io) := by
  cases h
  case raised c => exact ⟨c, s.faultTaken_raise c _, .inr rfl⟩
  case entropyFailed rest =>
    exact ⟨.entropy, ((s.setEntropy rest).faultTaken_raise .entropy _).of_setEntropy, .inl rfl⟩
  case permutationFailed rest =>
    exact ⟨.entropy, ((s.setPermutations rest).faultTaken_raise .entropy _).of_setPermutations, .inl rfl⟩
  -- A command that completes leaves FAULT at 0.
  all_goals exact absurd (running.symm.trans hf) nofun

theorem ExecNext.hostTakes {i : Instr} {s t : State} (h : ExecNext i s t) : t.io.hostTakes = s.io.hostTakes := by
  cases h <;> rfl

/-- Settles O42: both ways to fault are fault entry, and a command makes at most one request. -/
theorem faultsArePrecise : Obligations.FaultsArePrecise := by
  intro s t w es hw h hf
  obtain ⟨events, line, -⟩ := step_of_receives hw h
  have released : t.io.resetLine = s.io.resetLine := line.trans hw.released.symm
  obtain ⟨-, rfl⟩ | ⟨i, hi, hx⟩ := hw.stepNext_cases h
  · have taken := (s.dropEvent.faultTaken_raise .illegal w).of_dropEvent
    exact ⟨⟨_, by decide, by decide, taken⟩, events, released, rfl, .inl rfl, .inl rfl⟩
  · have next := execNext_of_exec hx
    obtain ⟨c, taken, -⟩ := next.exists_faultTaken hw.unfaulted hf
    rw [encode_of_decode_eq_ok hi] at taken
    refine ⟨⟨c.code, c.code_range.1, c.code_range.2, taken.of_dropEvent⟩, events, released, next.hostTakes, ?_, ?_⟩
    · exact (exec_entropy hx).imp (·.1) fun ⟨_, _, a, used, _⟩ => ⟨a, used⟩
    · exact (exec_permutations hx).imp (·.1) fun ⟨_, _, used⟩ => used

/-! ### The order of the checks -/

/-- Settles O43, command by command: the branches of each meaning follow the order of R201. -/
theorem firstFailingCheckIsReported : Obligations.FirstFailingCheckIsReported := by
  intro s t w es hw h hf
  obtain ⟨⟨_, hd⟩, rfl⟩ | ⟨i, hi, hx⟩ := hw.stepNext_cases h
  · rw [hd]
    exact ⟨rfl, fun _ => ⟨rfl, rfl⟩⟩
  refine ⟨?order, fun other => ?answers⟩
  case answers =>
    obtain ⟨c, taken, rfl | kept⟩ := (execNext_of_exec hx).exists_faultTaken hw.unfaulted hf
    · exact absurd taken.cause other
    · rw [kept]
      exact ⟨rfl, rfl⟩
  case order =>
    have raised {u : State} {c : FaultCause} (e : exec i s.dropEvent = .next (u.raise c (encode i))) :
        t.cause = c.code := by rw [Host.Outcome.next.inj (hx.symm.trans e), State.raise_cause]
    have not_completed {u : State} (e : exec i s.dropEvent = .next u) (kept : u.fault = s.fault) : False := by
      simp [← Host.Outcome.next.inj (hx.symm.trans e), hf, hw.unfaulted] at kept
    have not_stopped {r : Fault} (e : exec i s.dropEvent = .fault r) : False := nomatch hx.symm.trans e
    rw [hi]
    cases i with
    | nop => exact (not_completed rfl rfl).elim
    | gadd rd rs1 rs2 => exact (not_completed rfl rfl).elim
    | gmul rd rs1 rs2 => exact (not_completed rfl rfl).elim
    | ldi rd imm => exact (not_completed rfl rfl).elim
    | gdiv rd rs1 rs2 =>
      obtain ⟨(zero : s.reg rs2 = 0), e⟩ | ⟨-, e⟩ := execGdiv_cases rd rs1 rs2 s.dropEvent
      · simp [raised e, zero, FaultCause.code]
      · exact (not_completed e rfl).elim
    | cfg k n =>
      obtain ⟨below | above, e⟩ | ⟨-, -, e⟩ := execCfg_cases k n s.dropEvent
      · simp [raised e, below, FaultCause.code]
      · simp [raised e, above, FaultCause.code]
      · exact (not_completed e rfl).elim
    | wrc rs1 idx =>
      obtain ⟨last, e⟩ | ⟨-, e⟩ := execWrc_cases rs1 idx s.dropEvent
      · simp [raised e, last, FaultCause.code]
      · exact (not_completed e rfl).elim
    | rdc rd idx =>
      obtain ⟨last, e⟩ | ⟨-, e⟩ := execRdc_cases rd idx s.dropEvent
      · simp [raised e, last, FaultCause.code]
      · exact (not_completed e rfl).elim
    | rndc =>
      obtain ⟨(unset : s.cfgv = false), e⟩ | ⟨-, -, e⟩ | ⟨(set : s.cfgv = true), a, rest, -, e⟩ :=
        execRndc_cases s.dropEvent
      · simp [raised e, unset, FaultCause.code]
      · exact (not_stopped e).elim
      · obtain ⟨-, e'⟩ | ⟨_, -, -, e'⟩ | ⟨_, -, -, e'⟩ := takeCoefficients_cases (s.dropEvent.setEntropy rest) a
        · simp [raised (e.trans e'), set, FaultCause.code]
        · exact (not_completed (e.trans e') rfl).elim
        · exact (not_stopped (e.trans e')).elim
    | perm =>
      obtain ⟨(unset : s.cfgv = false), e⟩ | ⟨-, -, e⟩ | ⟨(set : s.cfgv = true), a, rest, -, e⟩ :=
        execPerm_cases s.dropEvent
      · simp [raised e, unset, FaultCause.code]
      · exact (not_stopped e).elim
      · obtain ⟨_, -, -, e'⟩ | ⟨-, e'⟩ := takePermutation_cases (s.dropEvent.setPermutations rest) a
        · exact (not_completed (e.trans e') rfl).elim
        · simp [raised (e.trans e'), set, FaultCause.code]
    | rdx rd idx =>
      obtain ⟨(unset : s.cfgv = false), e⟩ | ⟨(set : s.cfgv = true), (noCoords : s.xv = false), e⟩ |
        ⟨(set : s.cfgv = true), (coords : s.xv = true), (above : s.n.toNat ≤ idx.toNat), e⟩ | ⟨-, -, -, e⟩ :=
        execRdx_cases rd idx s.dropEvent
      · simp [raised e, unset, FaultCause.code]
      · simp [raised e, set, noCoords, FaultCause.code]
      · simp [raised e, set, coords, above, FaultCause.code]
      · exact (not_completed e rfl).elim
    | eval rd rs1 =>
      obtain ⟨(unset : s.cfgv = false), e⟩ | ⟨-, e⟩ := execEval_cases rd rs1 s.dropEvent
      · simp [raised e, unset, FaultCause.code]
      · exact (not_completed e rfl).elim
    | evalp rd idx =>
      obtain ⟨(unset : s.cfgv = false), e⟩ | ⟨(set : s.cfgv = true), (noCoords : s.xv = false), e⟩ |
        ⟨(set : s.cfgv = true), (coords : s.xv = true), (above : s.n.toNat ≤ idx.toNat), e⟩ | ⟨-, -, -, e⟩ :=
        execEvalp_cases rd idx s.dropEvent
      · simp [raised e, unset, FaultCause.code]
      · simp [raised e, set, noCoords, FaultCause.code]
      · simp [raised e, set, coords, above, FaultCause.code]
      · exact (not_completed e rfl).elim
    | out rs1 =>
      obtain ⟨-, e⟩ | ⟨-, e⟩ := execOut_cases rs1 s.dropEvent
      · exact (not_completed e rfl).elim
      · exact (not_stopped e).elim

end Sys2Proof.Machine
end

section
/-! SUPPORT. The reset state (spec 70 R230, R231): what a RESET event gives, and the invariant there. The latencies
of R240 and R241: the table, and what it does not depend on. -/

namespace Sys2Proof.Machine

/-! ### RESET -/

/-- R230: a release of an asserted RESET gives the reset state once more. -/
theorem step_of_release {s : State} {es : List HostEvent} (he : s.io.events = .resetRelease :: es)
    (asserted : s.io.resetLine = true) : step s = .next (s.dropEvent.applyReset.setResetLine false) := by
  rw [step, deliverNext, he]
  exact if_pos asserted

/-- R230: a word that comes while RESET is asserted is not accepted. -/
theorem step_of_command_in_reset {s : State} {w : CmdWord} {es : List HostEvent}
    (he : s.io.events = .command w :: es) (asserted : s.io.resetLine = true) : step s = .next s.dropEvent := by
  rw [step, deliverNext, he]
  exact if_pos asserted

/-- A step to the reset state keeps the ROM and, of the ports, writes the level of RESET and the events left. -/
theorem exists_atReset_of_step {s : State} {e : HostEvent} {es : List HostEvent} {level : Bool}
    (he : s.io.events = e :: es) (h : step s = .next (s.dropEvent.applyReset.setResetLine level)) :
    ∃ t, step s = .next t ∧ t.AtReset ∧ t.rom = s.rom ∧ t.faultLine = false ∧
      t.io = { s.io with events := es, resetLine := level } := by
  refine ⟨_, h, s.dropEvent.atReset_applyReset.setResetLine level, rfl, rfl, ?_⟩
  rw [State.dropEvent_of_events he]
  rfl

/-- Settles O9, by the three events that meet RESET. -/
theorem resetGivesTheResetState : Obligations.ResetGivesTheResetState := by
  refine fun s e es he => ⟨fun asserts => ?assertion, ?release, ?word⟩
  case assertion => exact exists_atReset_of_step he (step_of_assertsReset he asserts)
  case release =>
    rintro rfl asserted
    exact exists_atReset_of_step he (step_of_release he asserted)
  case word =>
    rintro w rfl asserted
    rw [step_of_command_in_reset he asserted, State.dropEvent_of_events he]

/-! ### The reset state and the invariant -/

/-- A block built with any parameters starts where a RESET would take it. -/
theorem State.atReset_resetWith (p : FieldParams) : (State.resetWith p).AtReset :=
  (State.resetWith p).atReset_applyReset

/-- At reset nothing is configured and nothing recorded, so the invariant asks for the tables only. -/
theorem State.AtReset.inv {p : FieldParams} {s : State} (h : s.AtReset) (hrom : s.rom = p.rom) : Inv p s where
  rom := hrom
  configured set := absurd (h.cfgv.symm.trans set) nofun
  unconfigured _ := ⟨h.k, h.n⟩
  coords valid := absurd (h.xv.symm.trans valid) nofun
  no_record _ := ⟨h.cause, h.fcmd⟩
  record halted := absurd (h.fault.symm.trans halted) nofun
  in_reset _ := h

/-- The model's own start state is that of the vector parameters (log 1). -/
theorem State.reset_eq_resetWith : State.reset = State.resetWith Config.vectorParams :=
  congrArg State.resetAround rom_vector

/-- Settles O50: the invariant holds at reset with the tables of the parameters. -/
theorem resetMeetsTheInvariant : Obligations.ResetMeetsTheInvariant := by
  have start (p : FieldParams) : Inv p (State.resetWith p) := (State.atReset_resetWith p).inv rfl
  refine ⟨fun p => ⟨start p, State.atReset_resetWith p⟩, ?_⟩
  rw [State.reset_eq_resetWith]
  exact start Config.vectorParams

/-! ### Latencies -/

theorem latency_of_completes {i : Instr} {s : State} (h : completes i s = true) :
    latency i s = some (units Config.evalZeroShortcut s i) := if_pos h

/-- R240: a command that ends with FAULT = 1 has no latency. -/
theorem latency_of_fault {i : Instr} {s t : State} (h : exec i s = .next t) (hf : t.fault = true) :
    latency i s = none := by
  have faulted : ¬ completes i s = true := by simp [completes, h, hf]
  rw [latency, if_neg faulted]

/-- Settles O53, command by command. -/
theorem latenciesAreThoseOfTheTable : Obligations.LatenciesAreThoseOfTheTable := by
  refine ⟨fun i s done => ?_, fun _ _ _ => latency_of_fault⟩
  rw [latency_of_completes done]
  cases i <;> rfl

theorem evalUnits_congr (shortcut : Bool) (k : Byte) {x y : Byte} (h : x = 0 ↔ y = 0) :
    evalUnits shortcut k x = evalUnits shortcut k y := by
  simp only [evalUnits, h]

/-- Settles O52: the units of PERM read N alone, those of EVAL and EVALP read K and whether the coordinate is 0, and
all others read nothing of the state. -/
theorem latencyDoesNotDependOnSecrets : Obligations.LatencyDoesNotDependOnSecrets := by
  intro i s t hs ht hk hn hEval hEvalp
  rw [latency_of_completes hs, latency_of_completes ht]
  congr 1
  cases i with
  | perm => rw [units, units, hn]
  | eval rd rs1 => rw [units, units, hk, evalUnits_congr _ _ (hEval rd rs1 rfl)]
  | evalp rd idx => rw [units, units, hk, evalUnits_congr _ _ (hEvalp rd idx rfl)]
  | _ => rfl

end Sys2Proof.Machine
end
